-- ==== Sys2Proof/Word.lean ====
section
/-!
DEFINITION. The word types of the ring's layouts (R24): a byte and fields of two and four bytes.
-/
namespace Sys2Proof

/-- One byte of a frame (R24). -/
abbrev Byte := BitVec 8

/-- A field of two bytes, stored least significant byte first (R24). -/
abbrev Half := BitVec 16

/-- A field of four bytes, stored least significant byte first (R24). -/
abbrev Word := BitVec 32

end Sys2Proof
end

