-- ==== Sys2Proof/Syntax.lean ====
section
/-!
DEFINITION. The commands of the DR-4: one constructor per row of spec/opcode_table.json.
Operands are the arguments of section 11.2, in the widths of R24; the pin and pass rows carry what the event brings.
-/
namespace Sys2Proof

/-- A head number, 0 to 3 (00_scope.md, "Head"), as an event inside the part names it. -/
abbrev HeadNo := Fin 4

/-- A change of the filtered STOP level that falls inside a pass (R151: it "may fall between any two sections of a frame").
`before` is the number of sections of the frame taken when the change falls; `asserted` is the new level. Log 3. -/
structure StopEdge where
  before : Nat
  asserted : Bool
deriving DecidableEq, Repr

/-- The commands. The first nine rows are events of pins, ring and counts; the others are management requests, each being
the request taken by the Management Agent (log 1). -/
inductive Instr where
  /-- R2, R169: power-up or release of RESET; the six address pins as sampled, and the STOP level after its filter. -/
  | powerOnReset (pins : BitVec 6) (stop : Bool)
  /-- R169: the RESET pin becomes asserted. -/
  | resetPinAssert
  /-- R151: the filtered STOP level takes a value. -/
  | stopPinChange (asserted : Bool)
  /-- R14: a frame arrives on LINE IN. -/
  | outboundPass (frame : List Byte) (edges : List StopEdge)
  /-- R15: a frame arrives on SPUR IN. -/
  | returnPass (frame : List Byte) (edges : List StopEdge)
  /-- R116: the spin-up count is beyond its limit on a TOOL return that reports this spindle speed. -/
  | spinUpLimit (h : HeadNo) (spindle : Half)
  /-- R127: the home wait count goes beyond 1,000 on a TOOL return that reports this position and AT_HOME flag. -/
  | toolNotHome (h : HeadNo) (actual : Word) (atHome : Bool)
  /-- R135: the feed count is beyond the rivet feed limit on a TOOL return with this RIVET_PRESENT flag. -/
  | rivetFeedLimit (h : HeadNo) (present : Bool)
  /-- R139: the dwell count reaches the dwell on a TOOL return that reports this force. -/
  | dwellComplete (h : HeadNo) (force : Half)
  | jigLoad (id : Word)
  | jigStart
  | jigRelease
  | holeWriteA (index : Half) (x t : Word) (face : Byte)
  | holeWriteB (index : Half) (drill set : Byte) (depth stroke : Word)
  | holeSkip (index : Half)
  | holeRead (index : Half)
  | correctionPoint (k : Byte) (x dx dt : Word)
  | correctionCommit (m : Byte)
  | correctionRead (which : Byte) (k : Half)
  | profileBegin (p kind : Byte)
  /-- R97: the bytes after *p* and *group*; their layout depends on the kind of the profile. -/
  | profileFields (p group : Byte) (values : List Byte)
  | profileLayer (p i : Byte) (thickness feed : Word)
  | profileComparator (p k source condition : Byte) (low high : Word) (mask : Half) (count action : Byte)
  | profileEnd (p : Byte)
  | profileRead (p part : Byte)
  | headConfig (h kind face group : Byte) (ox ot w band : Word) (count : Byte) (shift : Word) (mode : Byte) (home : Word)
  | headEnable (h : Byte)
  | headDisable (h : Byte)
  | headClear (h : Byte)
  | assign (h : Byte) (i : Half)
  | withdraw (h : Byte)
  | start (set : Byte)
  | resume (h : Byte)
  | cancel (h : Byte)
  | headRead (h : Byte)
  | mapWrite (e id role head : Byte)
  | mapClear
  | groupConfig (g : Byte) (d : Word)
  | stationConfig (limit : Byte) (upper lower : Half)
  | resultRead (k : Byte)
  | resultFlush
  | faultRead
  | faultClear (set : Half)
  | faultEnable (set : Half)
  | attentionRearm
  | counterRead
  | stationReset
deriving DecidableEq, Repr

end Sys2Proof
end

