-- ==== Sys2Proof/Machine/State.lean ====
section
/-!
DEFINITION. The state of the DR-4 as plain data, block by block (00_scope.md, "Blocks and how they work together"), the queue
of waiting commands, and the state right after reset.
Positions, depths, strokes, speeds and distances are exact integers of µm (00_scope.md, "Integer arithmetic").
-/
namespace Sys2Proof.Machine

/-- A sparse table: the entries that are present, by key.
Canonical form: keys strictly rising; a key that is not listed is absent (empty, unwritten). -/
abbrev Table (α : Type) := List (Nat × α)

/-- One thing for each of the numbers 0 to 3 (heads, groups). -/
structure Four (α : Type) where
  n0 : α
  n1 : α
  n2 : α
  n3 : α
deriving DecidableEq, Repr

/-! ## Names (R24, "Code lists") -/

inductive JigState where
  | empty | loading | working | released
deriving DecidableEq, Repr

inductive Face where
  | left | right | top
deriving DecidableEq, Repr

inductive HeadKind where
  | drill | set
deriving DecidableEq, Repr

/-- R56. -/
inductive StartMode where
  | auto | explicit
deriving DecidableEq, Repr

/-- R59. -/
inductive HeadState where
  | offline | idle | seeking | settling | armed | engaged | frozen | retracting | halted | fault
deriving DecidableEq, Repr

/-- R80. -/
inductive GateState where
  | opened | held | rejoin
deriving DecidableEq, Repr

/-- R22. -/
inductive DriveStatus where
  | ready | notReady | fault
deriving DecidableEq, Repr

/-- R18: the roles an entry of the section map can hold. -/
inductive Role where
  | carriage (h : HeadNo)
  | tool (h : HeadNo)
  | status
  | resultSlot
deriving DecidableEq, Repr

/-- R34, R43. -/
inductive HoleState where
  | pending | drilling | drilled | suspect | setting | set | rejected | skipped
deriving DecidableEq, Repr

/-- R30: the set entry state. -/
inductive EntryState where
  | drilled | suspect
deriving DecidableEq, Repr

/-- R154: the outcomes; NOT_DONE belongs to a stale discard. -/
inductive CycleOutcome where
  | good | suspect | aborted | interrupted | cancelled | failed | notDone
deriving DecidableEq, Repr

/-- R24's list of reasons; COMPARATOR carries its number. -/
inductive Reason where
  | none | noContact | noBreakthrough | chipPack | overload | shift | spindle
  | comparator (k : Nat)
  | noRivet | obstructed | short | long | slip | halt | spurLoss | sectionMissing | driveFault | toolNotHome
  | state | profile | limit
deriving DecidableEq, Repr

/-- R165. -/
inductive FaultKind where
  | frameDamaged | spurLoss | sectionMissing | driveFault | headFault | cycleFailed | cycleAborted | comparatorNote
  | headFrozen | staleAssignment | resultHold | halt | stackMismatch | jigComplete | profileInvalid
deriving DecidableEq, Repr

/-- R162: why a request is refused. -/
inductive Denial where
  | unknown | badIndex | badValue | state | inUse | order | full | duplicate | noHalfA | face | operation | map
deriving DecidableEq, Repr

/-- R162: an answer: DONE, DONE with CLAMPED, or REFUSED with one reason; the first two with their data. -/
inductive Reply where
  | done (data : List Byte)
  | clamped (data : List Byte)
  | refused (why : Denial)
deriving DecidableEq, Repr

/-- A position of a carriage on its two axes, µm. -/
structure Spot where
  x : Int
  t : Int
deriving DecidableEq, Repr

/-! ## Ring Port Unit -/

/-- R18. -/
structure MapEntry where
  id : Nat
  role : Role
deriving DecidableEq, Repr

/-- The Ring Port Unit (chapter 1) with the halt monitor's two inputs (R151). -/
structure Ring where
  /-- R2: the station address sampled at power-on reset. -/
  address : BitVec 6
  /-- R169: the RESET pin is asserted. -/
  inReset : Bool
  /-- R151: the STOP level after its filter. -/
  stopPin : Bool
  /-- R7. -/
  headerHalt : Bool
  /-- R8: the frame-in-flight record. -/
  inFlight : Option Half
  /-- R11: the consecutive-loss count. -/
  losses : Nat
  /-- R11, R163: the station loss limit. -/
  lossLimit : Nat
  /-- R23. -/
  framesTaken : Word
  damagedFrames : Word
  lostReturns : Word
  staleReturns : Word
  /-- R18: the section map; an entry that is not listed is empty. -/
  map : Table MapEntry
  /-- The model's own (log 8): the sequence of the frame on whose pass the part is acting, for R155. -/
  passSeq : Half
  /-- R1: the frames that have left on SPUR OUT, oldest first (log 4). -/
  spurOut : List (List Byte)
  /-- R1: the frames that have left on LINE OUT, oldest first (log 4). -/
  lineOut : List (List Byte)
deriving DecidableEq, Repr

/-! ## Hole Table -/

/-- R40. -/
structure Measured where
  contact : Int
  breakthrough : Int
  grip : Int
deriving DecidableEq, Repr

/-- A present hole record: plan (R29) and runtime fields (R30). -/
structure Hole where
  x : Int
  t : Int
  face : Face
  drill : Option Nat
  set : Option Nat
  depth : Int
  stroke : Int
  state : HoleState
  claimant : Option HeadNo
  attempts : Nat
  entry : Option EntryState
  measured : Option Measured
  /-- R41: last outcome and last reason, both absent or both present. -/
  last : Option (CycleOutcome × Reason)
deriving DecidableEq, Repr

/-- R31: a half A in the holding buffer. -/
structure HalfA where
  index : Nat
  x : Int
  t : Int
  face : Face
deriving DecidableEq, Repr

/-- The Hole Table (chapter 2). -/
structure HoleTable where
  jig : JigState
  jigId : Word
  complete : Bool
  /-- R29: the records that are present. -/
  holes : Table Hole
  halfA : Option HalfA
deriving DecidableEq, Repr

/-! ## Correction Unit -/

/-- R45: one datum point. -/
structure Point where
  x : Int
  dx : Int
  dt : Int
deriving DecidableEq, Repr

/-- R45: the staging table (unwritten points are not listed) and the active points; the active count is their number. -/
structure Correction where
  staging : Table Point
  active : List Point
deriving DecidableEq, Repr

/-! ## Profile Store -/

/-- R95: the fields of a drill profile. -/
structure DrillFields where
  spindleSpeed : Nat
  spinUpLimit : Nat
  approachSpeed : Int
  acceleration : Int
  clearance : Int
  rampMargin : Int
  retractSpeed : Int
  contactForce : Nat
  contactCount : Nat
  contactWindow : Int
  exitSpeed : Int
  exitWindow : Int
  breakthroughForce : Nat
  breakthroughCount : Nat
  lateLimit : Int
  overtravel : Int
  stackTolerance : Int
  overloadForce : Nat
  chipLoadTorque : Nat
  torqueCount : Nat
  maxPecks : Nat
  resumeBackoff : Int
deriving DecidableEq, Repr

/-- R96: the fields of a set profile. -/
structure SetFields where
  feedLimit : Nat
  advanceSpeed : Int
  acceleration : Int
  clearance : Int
  squeezeSpeed : Int
  retractSpeed : Int
  contactForce : Nat
  contactCount : Nat
  gripWindow : Int
  setForce : Nat
  holdForce : Nat
  dwell : Nat
  overloadForce : Nat
  formedMin : Int
  formedMax : Int
  nominalGrip : Int
  acceptSuspect : Bool
deriving DecidableEq, Repr

/-- R98: one plate. -/
structure Layer where
  thickness : Int
  feed : Int
deriving DecidableEq, Repr

/-- R99. -/
inductive Source where
  | force | torque | toolPosition | toolFollowing | spindleSpeed | carriageDev
deriving DecidableEq, Repr

inductive Condition where
  | above | below | inside | outside
deriving DecidableEq, Repr

inductive Action where
  | note | latch | ease | freeze | retract
deriving DecidableEq, Repr

/-- R99: a comparator record. -/
structure Comparator where
  source : Source
  condition : Condition
  low : Int
  high : Int
  mask : BitVec 16
  count : Nat
  action : Action
deriving DecidableEq, Repr

/-- R100: the reasons of an INVALID profile. -/
inductive InvalidReason where
  | noLayers | layerGap | exitWindow | breakthroughForce | overload | formedStroke | holdForce | comparatorLimits
deriving DecidableEq, Repr

/-- The field values of a profile's kind; a drill profile also has its layer slots 1 to 6 (R92). -/
inductive Body where
  | drill (f : DrillFields) (layers : Table Layer)
  | set (f : SetFields)
deriving DecidableEq, Repr

/-- R92: the state of a profile that has been opened; the INVALID reason is there exactly when the state is INVALID. -/
inductive ProfileState where
  | loading
  | valid
  | invalid (why : InvalidReason)
deriving DecidableEq, Repr

/-- R92: a profile record that is not EMPTY. -/
structure Profile where
  state : ProfileState
  body : Body
  /-- Comparator slots 0 to 5; an empty slot is not listed. -/
  comparators : Table Comparator
  clamped : Bool
deriving DecidableEq, Repr

/-! ## Heads: Head Controller, Motion Gate, Cycle Engine, Comparator Bank -/

/-- R56. -/
structure HeadConfig where
  kind : HeadKind
  face : Face
  group : HeadNo
  offsetX : Int
  offsetT : Int
  window : Int
  settleBand : Int
  settleCount : Nat
  shiftLimit : Int
  startMode : StartMode
  homeBand : Int
deriving DecidableEq, Repr

/-- R73: a head's claim record. -/
structure Claim where
  hole : Nat
  claimX : Int
deriving DecidableEq, Repr

/-- R79: the last claim refusal. -/
inductive ClaimRefusal where
  | none | busy | keepOut
deriving DecidableEq, Repr

/-- R80: a Motion Gate. -/
structure Gate where
  state : GateState
  passed : Option Spot
  held : Option Spot
  sent : Option Spot
  deviation : Option Spot
  holdDistance : Int
deriving DecidableEq, Repr

/-- R104. -/
inductive Phase where
  | stopping | run | rampDown | homeWait
deriving DecidableEq, Repr

/-- R115: the drill stages; `cut i` is CUT_i, the plate of layer `i` counted from 1. -/
inductive DrillStage where
  | approach | seek
  | cut (i : Nat)
  | exit | overtravel | peckOut | peckIn | retract
deriving DecidableEq, Repr

/-- R134: the set stages. -/
inductive SetStage where
  | feedWait | advance | seek | squeeze | hold | retract
deriving DecidableEq, Repr

/-- R104: the items of a drilling cycle. -/
structure DrillWork where
  prof : DrillFields
  /-- R103: the layer list, from the surface down. -/
  layers : List Layer
  surface : Int
  stage : DrillStage
  spindleReady : Bool
  contactCount : Nat
  breakthroughCount : Nat
  torqueCount : Nat
  contact : Option Int
  layerEnd : Option Int
  breakthrough : Option Int
  peckDepth : Option Int
  pecks : Nat
  peckLayer : Option Nat
  peakTorque : Nat
  overTorque : Nat
deriving DecidableEq, Repr

/-- R104, R129, R131: the items of a setting cycle. -/
structure SetWork where
  prof : SetFields
  expected : Int
  gripComp : Int
  stage : SetStage
  /-- R104: kept by R129, which does not name it among its differences; clear throughout a setting cycle (R131; log 30). -/
  spindleReady : Bool
  contactCount : Nat
  forceCount : Nat
  dwellCount : Nat
  contact : Option Int
  setStroke : Option Int
  deepest : Int
  /-- R104: kept by R129, as the mark is; 0 throughout a setting cycle, since R124 counts in CUT and EXIT only (log 30). -/
  overTorque : Nat
  /-- R131: the spindle actual of the latest cycle return; absent before the first (its place in the record: log 29). -/
  spindleActual : Option Nat
deriving DecidableEq, Repr

inductive Work where
  | drill (w : DrillWork)
  | set (w : SetWork)
deriving DecidableEq, Repr

/-- R104, R129: a cycle in flight. -/
structure Cycle where
  hole : Nat
  phase : Phase
  /-- The pending setpoint *p*. -/
  p : Int
  /-- The speed *s*. -/
  s : Int
  /-- R112: the boundary of the stage that was running when STOPPING began. -/
  stopBound : Int
  /-- The depth or stroke carried by the frame now in flight. -/
  sent : Option Int
  /-- Spin-up count of a drilling cycle, feed count of a setting cycle. -/
  frames : Nat
  peakForce : Nat
  homeWait : Nat
  decision : Option (CycleOutcome × Reason)
  /-- R106: an outbound pass has begun since engagement. -/
  begun : Bool
  /-- R113: an immediate stop was decided on the CARRIAGE return of this frame. -/
  stopped : Bool
  work : Work
deriving DecidableEq, Repr

/-- R143: a live comparator. -/
structure LiveComparator where
  slot : Nat
  record : Comparator
  count : Nat
  fired : Bool
deriving DecidableEq, Repr

/-- R143: the latch. -/
structure Latch where
  comparator : Nat
  setpoint : Int
  source : Int
deriving DecidableEq, Repr

/-- R143: a Comparator Bank. -/
structure Bank where
  live : List LiveComparator
  latch : Option Latch
  notes : Nat
  /-- The CUT stage whose target is eased (R146). -/
  ease : Option Nat
deriving DecidableEq, Repr

/-- One head: its controller (R56 to R79), its gate, its engine and its bank. -/
structure Head where
  cfg : HeadConfig
  state : HeadState
  queue : List Nat
  settle : Nat
  claim : Option Claim
  lastRefusal : ClaimRefusal
  faultCause : Option Reason
  carriageStatus : DriveStatus
  toolStatus : DriveStatus
  gate : Gate
  engine : Option Cycle
  bank : Bank
deriving DecidableEq, Repr

/-! ## Result Queue -/

/-- R154. -/
inductive Operation where
  | none | drill | set
deriving DecidableEq, Repr

/-- R128, R154: the drill group of a record. -/
structure DrillGroup where
  contact : Int
  breakthrough : Int
  stack : Int
  peakForce : Nat
  peakTorque : Nat
  pecks : Nat
  overTorque : Nat
deriving DecidableEq, Repr

/-- R142, R154: the set group of a record. -/
structure SetGroup where
  contact : Int
  final : Int
  formed : Int
  peakForce : Nat
  dwell : Nat
  gripComp : Int
deriving DecidableEq, Repr

/-- R154: "A record has at most one of the drill group and the set group." -/
inductive CycleGroup where
  | none
  | drill (g : DrillGroup)
  | set (g : SetGroup)
deriving DecidableEq, Repr

/-- R154: a result record. -/
structure Result where
  jigId : Word
  hole : Nat
  head : HeadNo
  operation : Operation
  outcome : CycleOutcome
  reason : Reason
  attempt : Nat
  sequence : Half
  notes : Nat
  latch : Option Latch
  group : CycleGroup
deriving DecidableEq, Repr

/-- R154. -/
structure ResultQueue where
  records : List Result
  upper : Nat
  lower : Nat
  hold : Bool
deriving DecidableEq, Repr

/-! ## Management Agent, Fault and Attention Unit -/

/-- R162, R168. -/
structure Mgmt where
  answer : Option Reply
  refused : Word
deriving DecidableEq, Repr

/-- R165, R167: bit *n* of a set is the kind numbered *n*. -/
structure FaultUnit where
  raw : BitVec 15
  enable : BitVec 15
  attention : Bool
  armed : Bool
deriving DecidableEq, Repr

/-! ## The station, and the machine with its queue -/

/-- Everything the spec gives the part. -/
structure Station where
  ring : Ring
  table : HoleTable
  correction : Correction
  heads : Four Head
  /-- R58: the keep-out distance of each group. -/
  keepOut : Four Int
  /-- R92: the profiles that are not EMPTY. -/
  profiles : Table Profile
  results : ResultQueue
  mgmt : Mgmt
  faults : FaultUnit
deriving DecidableEq, Repr

/-- The station and the commands that are waiting, first in, first out. -/
structure State extends Station where
  pending : List Instr
deriving DecidableEq, Repr

/-- The part never stops with a fault: what the spec calls faults is state (the raw fault set, the head state FAULT), so no
meaning raises one and the type has no constructor. -/
inductive Fault where
deriving DecidableEq, Repr

inductive Refusal where
  /-- Raised by an arm of exec whose command has no meaning yet; safe. No arm of this model raises it. -/
  | notModelled (mnemonic : String)
deriving DecidableEq, Repr

/-! ## Reset values -/

/-- R80. -/
def Gate.initial : Gate :=
  { state := .opened, passed := none, held := none, sent := none, deviation := none, holdDistance := 0 }

/-- R143. -/
def Bank.initial : Bank := { live := [], latch := none, notes := 0, ease := none }

/-- R56: the defaults; the default group is the head's own number. -/
def HeadConfig.initial (h : HeadNo) : HeadConfig :=
  { kind := .drill, face := .left, group := h, offsetX := 0, offsetT := 0, window := 500, settleBand := 50,
    settleCount := 4, shiftLimit := 300, startMode := .auto, homeBand := 200 }

/-- R59, R79, R104. -/
def Head.initial (h : HeadNo) : Head :=
  { cfg := .initial h, state := .offline, queue := [], settle := 0, claim := none, lastRefusal := .none,
    faultCause := none, carriageStatus := .notReady, toolStatus := .notReady, gate := .initial, engine := none,
    bank := .initial }

/-- R2, R7, R8, R11, R18, R23: the Ring Port Unit after power-on reset, with the address and STOP level found at the pins. -/
def Ring.initial (address : BitVec 6) (stop : Bool) : Ring :=
  { address, inReset := false, stopPin := stop, headerHalt := false, inFlight := none, losses := 0, lossLimit := 3,
    framesTaken := 0, damagedFrames := 0, lostReturns := 0, staleReturns := 0, map := [], passSeq := 0,
    spurOut := [], lineOut := [] }

/-- The values of chapters 2 to 11 after power-on reset, with STOP not yet looked at (R151). -/
def Station.initial (address : BitVec 6) (stop : Bool) : Station :=
  { ring := .initial address stop
    table := { jig := .empty, jigId := 0, complete := false, holes := [], halfA := none }
    correction := { staging := [], active := [] }
    heads := { n0 := .initial 0, n1 := .initial 1, n2 := .initial 2, n3 := .initial 3 }
    keepOut := { n0 := 0, n1 := 0, n2 := 0, n3 := 0 }
    profiles := []
    results := { records := [], upper := 48, lower := 16, hold := false }
    mgmt := { answer := none, refused := 0 }
    faults := { raw := 0, enable := BitVec.allOnes 15, attention := false, armed := true } }

/-- The machine right after power-on reset, with station address 1 (DESIGN CHOICE, log 5) and STOP not asserted
(DESIGN CHOICE, log 6). -/
def State.reset : State := { toStation := .initial 1 false, pending := [] }

end Sys2Proof.Machine
end

