-- ==== Sys2Proof/Machine/Gate.lean ====
section
/-!
DEFINITION. The Motion Gate (chapter 5) as operations on one gate.
-/
namespace Sys2Proof.Machine

/-- |v| as a distance. -/
def magnitude (v : Int) : Int := v.natAbs

/-- What a gate lets out of a CARRIAGE section on the outbound pass (R84): the gate afterwards, the setpoints that leave, and
GATED. -/
structure GateOut where
  gate : Gate
  setpoint : Spot
  gated : Bool
deriving DecidableEq, Repr

/-- R81, R83: the incoming setpoints pass unchanged; the gate is OPEN. -/
def Gate.pass (g : Gate) (incoming : Spot) : GateOut :=
  { gate := { g with state := .opened, held := if g.state = .opened then g.held else none, passed := some incoming,
                     sent := some incoming }
    setpoint := incoming
    gated := false }

/-- R82, R83: the held position replaces the setpoints. (A HELD or REJOIN gate has a held position, R80; were there none, the
incoming setpoints would leave, log 15.) -/
def Gate.replace (g : Gate) (incoming : Spot) : GateOut :=
  { gate := { g with sent := some (g.held.getD incoming) }, setpoint := g.held.getD incoming, gated := true }

/-- R83: the rejoin test, with the head's settle band. -/
def Gate.rejoins (g : Gate) (band : Int) (incoming : Spot) : Bool :=
  match g.held with
  | some held => decide (magnitude (incoming.x - held.x) ≤ band ∧ magnitude (incoming.t - held.t) ≤ band)
  | none => false

/-- R81, R82, R83: a CARRIAGE section on the outbound pass. -/
def Gate.outbound (g : Gate) (band : Int) (incoming : Spot) : GateOut :=
  match g.state with
  | .opened => g.pass incoming
  | .held => g.replace incoming
  | .rejoin => if g.rejoins band incoming then g.pass incoming else g.replace incoming

/-- R89, R90: a CARRIAGE return: the deviation, and in HELD the hold distance. -/
def Gate.returned (g : Gate) (actual : Spot) : Gate :=
  { g with
    deviation := match g.sent with
      | some sp => some { x := sp.x - actual.x, t := sp.t - actual.t }
      | none => g.deviation
    holdDistance := match g.state, g.held with
      | .held, some sp => max (magnitude (sp.x - actual.x)) (magnitude (sp.t - actual.t))
      | _, _ => g.holdDistance }

/-- R91: the shift test. -/
def Gate.shifted (g : Gate) (limit : Int) (actual : Spot) : Bool :=
  match g.held with
  | some sp => decide (limit < magnitude (sp.x - actual.x) ∨ limit < magnitude (sp.t - actual.t))
  | none => false

/-- R85: engagement. -/
def Gate.engage (g : Gate) : Gate := { g with state := .held, held := g.passed, holdDistance := 0 }

/-- R86: a FAULT reaches the head. -/
def Gate.fault (g : Gate) : Gate :=
  match g.state, g.passed with
  | .opened, none => g
  | .opened, some sp => { g with state := .held, held := some sp }
  | .held, _ => g
  | .rejoin, _ => { g with state := .held }

/-- R87: a cycle end not caused by a fault, or HEAD DISABLE: only a HELD gate moves. -/
def Gate.letGo (g : Gate) : Gate :=
  match g.state with
  | .held => { g with state := .rejoin }
  | .opened | .rejoin => g

/-- R87: HEAD CLEAR. -/
def Gate.clear (g : Gate) : Gate :=
  match g.state, g.passed with
  | .opened, none => g
  | .opened, some sp => { g with state := .rejoin, held := some sp }
  | .held, _ | .rejoin, _ => { g with state := .rejoin }

/-- R89: the sent setpoints belong to one frame. -/
def Gate.passBegins (g : Gate) : Gate := { g with sent := none }

end Sys2Proof.Machine
end

