-- ==== Sys2Proof/Config.lean ====
section
/-!
DEFINITION. What the spec leaves open as a value.
The DR-4 of the spec has no options fixed at manufacture; the six address pins are an operand of POWER_ON_RESET.
-/
namespace Sys2Proof

/-- The four bytes that carry a latched source value which no signed 32-bit field can hold.
R24 gives the latch source value four signed bytes, and R144 gives TOOL_FOLLOWING as a difference and CARRIAGE_DEV as a
distance of two signed 32-bit values, which may lie outside them; no rule says what the field then carries.
Free value, DESIGN CHOICE (log 9): nothing constrains it. -/
opaque Config.latchSourceBeyondField : Int → Word

end Sys2Proof
end

