-- ==== Sys2Proof/Decode.lean ====
section
/-!
DEFINITION. Decoding: the table's rows give no bits, so a table word spells no command (log 17); a management request does
have a wire form, the 80 bytes of a MGMT payload (R24), decoded here, with its encoder after it.
-/
namespace Sys2Proof

/-- No row of spec/opcode_table.json gives bits: no word spells a command. -/
def decodeTableWord (_nbits _w : Nat) : Option Instr := none

/-! ## Bytes of a payload -/

/-- The byte at offset `o`; a payload that ends before it reads 00h there (only a list shorter than its role's length can). -/
def byteAt (l : List Byte) (o : Nat) : Byte := l.getD o 0

/-- Two bytes joined, least significant first (R24). -/
def join16 (b0 b1 : Byte) : Half := b1 ++ b0

/-- Four bytes joined, least significant first (R24). -/
def join32 (b0 b1 b2 b3 : Byte) : Word := (b3 ++ b2 : BitVec 16) ++ (b1 ++ b0 : BitVec 16)

/-- The two-byte field at offset `o`. -/
def halfAt (l : List Byte) (o : Nat) : Half := join16 (byteAt l o) (byteAt l (o + 1))

/-- The four-byte field at offset `o`. -/
def wordAt (l : List Byte) (o : Nat) : Word :=
  join32 (byteAt l o) (byteAt l (o + 1)) (byteAt l (o + 2)) (byteAt l (o + 3))

/-- The bytes of a two-byte field, least significant first (R24). -/
def bytes16 (v : Half) : List Byte := [v.extractLsb' 0 8, v.extractLsb' 8 8]

/-- The bytes of a four-byte field, least significant first (R24). -/
def bytes32 (v : Word) : List Byte :=
  [v.extractLsb' 0 8, v.extractLsb' 8 8, v.extractLsb' 16 8, v.extractLsb' 24 8]

/-- A list of exactly `n` bytes: `l` cut or followed by 00h (R24, "Unused bytes"). -/
def padTo (n : Nat) (l : List Byte) : List Byte := (l ++ List.replicate (n - l.length) 0).take n

/-! ## Requests on the wire -/

/-- What a MGMT payload holds: no request (kind 00h), a kind outside the code table, or a request (R162). -/
inductive Wire where
  | empty
  | unknown
  | request (i : Instr)
deriving DecidableEq, Repr

/-- The request of a MGMT payload: the kind at offset 0 by the table of request kind codes, the arguments packed from
offset 4 in the order and widths of section 11.2 and R24. -/
def decodeRequest (m : List Byte) : Wire :=
  match (byteAt m 0).toNat with
  | 0x00 => .empty
  | 0x10 => .request (.jigLoad (wordAt m 4))
  | 0x11 => .request .jigStart
  | 0x12 => .request .jigRelease
  | 0x20 => .request (.holeWriteA (halfAt m 4) (wordAt m 6) (wordAt m 10) (byteAt m 14))
  | 0x21 => .request (.holeWriteB (halfAt m 4) (byteAt m 6) (byteAt m 7) (wordAt m 8) (wordAt m 12))
  | 0x22 => .request (.holeSkip (halfAt m 4))
  | 0x23 => .request (.holeRead (halfAt m 4))
  | 0x30 => .request (.correctionPoint (byteAt m 4) (wordAt m 5) (wordAt m 9) (wordAt m 13))
  | 0x31 => .request (.correctionCommit (byteAt m 4))
  | 0x32 => .request (.correctionRead (byteAt m 4) (halfAt m 5))
  | 0x40 => .request (.profileBegin (byteAt m 4) (byteAt m 5))
  | 0x41 => .request (.profileFields (byteAt m 4) (byteAt m 5) (m.drop 6))
  | 0x42 => .request (.profileLayer (byteAt m 4) (byteAt m 5) (wordAt m 6) (wordAt m 10))
  | 0x43 => .request (.profileComparator (byteAt m 4) (byteAt m 5) (byteAt m 6) (byteAt m 7) (wordAt m 8) (wordAt m 12)
      (halfAt m 16) (byteAt m 18) (byteAt m 19))
  | 0x44 => .request (.profileEnd (byteAt m 4))
  | 0x45 => .request (.profileRead (byteAt m 4) (byteAt m 5))
  | 0x50 => .request (.headConfig (byteAt m 4) (byteAt m 5) (byteAt m 6) (byteAt m 7) (wordAt m 8) (wordAt m 12)
      (wordAt m 16) (wordAt m 20) (byteAt m 24) (wordAt m 25) (byteAt m 29) (wordAt m 30))
  | 0x51 => .request (.headEnable (byteAt m 4))
  | 0x52 => .request (.headDisable (byteAt m 4))
  | 0x53 => .request (.headClear (byteAt m 4))
  | 0x54 => .request (.assign (byteAt m 4) (halfAt m 5))
  | 0x55 => .request (.withdraw (byteAt m 4))
  | 0x56 => .request (.start (byteAt m 4))
  | 0x57 => .request (.resume (byteAt m 4))
  | 0x58 => .request (.cancel (byteAt m 4))
  | 0x59 => .request (.headRead (byteAt m 4))
  | 0x60 => .request (.mapWrite (byteAt m 4) (byteAt m 5) (byteAt m 6) (byteAt m 7))
  | 0x61 => .request .mapClear
  | 0x62 => .request (.groupConfig (byteAt m 4) (wordAt m 5))
  | 0x63 => .request (.stationConfig (byteAt m 4) (halfAt m 5) (halfAt m 7))
  | 0x70 => .request (.resultRead (byteAt m 4))
  | 0x71 => .request .resultFlush
  | 0x80 => .request .faultRead
  | 0x81 => .request (.faultClear (halfAt m 4))
  | 0x82 => .request (.faultEnable (halfAt m 4))
  | 0x83 => .request .attentionRearm
  | 0x90 => .request .counterRead
  | 0x91 => .request .stationReset
  | _ => .unknown

/-- The request kind code and the argument bytes of a request (R24, section 11.2); none for a command that is no request. -/
def requestParts : Instr → Option (Byte × List Byte)
  | .jigLoad id => some (0x10, bytes32 id)
  | .jigStart => some (0x11, [])
  | .jigRelease => some (0x12, [])
  | .holeWriteA index x t face => some (0x20, bytes16 index ++ bytes32 x ++ bytes32 t ++ [face])
  | .holeWriteB index drill set depth stroke =>
    some (0x21, bytes16 index ++ [drill, set] ++ bytes32 depth ++ bytes32 stroke)
  | .holeSkip index => some (0x22, bytes16 index)
  | .holeRead index => some (0x23, bytes16 index)
  | .correctionPoint k x dx dt => some (0x30, [k] ++ bytes32 x ++ bytes32 dx ++ bytes32 dt)
  | .correctionCommit m => some (0x31, [m])
  | .correctionRead which k => some (0x32, [which] ++ bytes16 k)
  | .profileBegin p kind => some (0x40, [p, kind])
  | .profileFields p group values => some (0x41, [p, group] ++ values)
  | .profileLayer p i thickness feed => some (0x42, [p, i] ++ bytes32 thickness ++ bytes32 feed)
  | .profileComparator p k source condition low high mask count action =>
    some (0x43, [p, k, source, condition] ++ bytes32 low ++ bytes32 high ++ bytes16 mask ++ [count, action])
  | .profileEnd p => some (0x44, [p])
  | .profileRead p part => some (0x45, [p, part])
  | .headConfig h kind face group ox ot w band count shift mode home =>
    some (0x50, [h, kind, face, group] ++ bytes32 ox ++ bytes32 ot ++ bytes32 w ++ bytes32 band ++ [count]
      ++ bytes32 shift ++ [mode] ++ bytes32 home)
  | .headEnable h => some (0x51, [h])
  | .headDisable h => some (0x52, [h])
  | .headClear h => some (0x53, [h])
  | .assign h i => some (0x54, [h] ++ bytes16 i)
  | .withdraw h => some (0x55, [h])
  | .start set => some (0x56, [set])
  | .resume h => some (0x57, [h])
  | .cancel h => some (0x58, [h])
  | .headRead h => some (0x59, [h])
  | .mapWrite e id role head => some (0x60, [e, id, role, head])
  | .mapClear => some (0x61, [])
  | .groupConfig g d => some (0x62, [g] ++ bytes32 d)
  | .stationConfig limit upper lower => some (0x63, [limit] ++ bytes16 upper ++ bytes16 lower)
  | .resultRead k => some (0x70, [k])
  | .resultFlush => some (0x71, [])
  | .faultRead => some (0x80, [])
  | .faultClear set => some (0x81, bytes16 set)
  | .faultEnable set => some (0x82, bytes16 set)
  | .attentionRearm => some (0x83, [])
  | .counterRead => some (0x90, [])
  | .stationReset => some (0x91, [])
  | .powerOnReset _ _ | .resetPinAssert | .stopPinChange _ | .outboundPass _ _ | .returnPass _ _ => none
  | .spinUpLimit _ _ | .toolNotHome _ _ _ | .rivetFeedLimit _ _ | .dwellComplete _ _ => none

/-- The MGMT payload that carries a request with a tag, as the line controller sends it: kind, tag, answer code and refusal
reason 00h, then the arguments (R24). -/
def encodeRequest (tag : Byte) (i : Instr) : Option (List Byte) :=
  (requestParts i).map fun (kind, args) => padTo 80 ([kind, tag, 0, 0] ++ args)

end Sys2Proof
end

