-- ==== Sys2Proof/Machine/Codes.lean ====
section
/-!
DEFINITION. The code lists of R24 and of the rules that give codes of their own (R43, R57, R79, R99, R100).
-/
namespace Sys2Proof.Machine

/-- R24, Flags: 00h when clear and 01h when set. -/
def flagByte (b : Bool) : Byte := if b then 1 else 0

def JigState.code : JigState → Byte
  | .empty => 0x00
  | .loading => 0x01
  | .working => 0x02
  | .released => 0x03

def HeadState.code : HeadState → Byte
  | .offline => 0x00
  | .idle => 0x01
  | .seeking => 0x02
  | .settling => 0x03
  | .armed => 0x04
  | .engaged => 0x05
  | .frozen => 0x06
  | .retracting => 0x07
  | .halted => 0x08
  | .fault => 0x09

def GateState.code : GateState → Byte
  | .opened => 0x00
  | .held => 0x01
  | .rejoin => 0x02

def HeadKind.code : HeadKind → Byte
  | .drill => 0x00
  | .set => 0x01

def HeadKind.ofCode (b : Byte) : Option HeadKind :=
  match b.toNat with
  | 0 => some .drill
  | 1 => some .set
  | _ => none

def Face.code : Face → Byte
  | .left => 0x00
  | .right => 0x01
  | .top => 0x02

def Face.ofCode (b : Byte) : Option Face :=
  match b.toNat with
  | 0 => some .left
  | 1 => some .right
  | 2 => some .top
  | _ => none

/-- R57. -/
def StartMode.code : StartMode → Byte
  | .auto => 0x00
  | .explicit => 0x01

def StartMode.ofCode (b : Byte) : Option StartMode :=
  match b.toNat with
  | 0 => some .auto
  | 1 => some .explicit
  | _ => none

def DriveStatus.code : DriveStatus → Byte
  | .ready => 0x00
  | .notReady => 0x01
  | .fault => 0x02

/-- R22: any other code is read as FAULT. -/
def DriveStatus.ofCode (b : Byte) : DriveStatus :=
  match b.toNat with
  | 0 => .ready
  | 1 => .notReady
  | _ => .fault

def DrillStage.code : DrillStage → Byte
  | .approach => 0x01
  | .seek => 0x02
  | .cut i => BitVec.ofNat 8 (i + 2)
  | .exit => 0x09
  | .overtravel => 0x0A
  | .peckOut => 0x0B
  | .peckIn => 0x0C
  | .retract => 0x0D

def SetStage.code : SetStage → Byte
  | .feedWait => 0x10
  | .advance => 0x11
  | .seek => 0x12
  | .squeeze => 0x13
  | .hold => 0x14
  | .retract => 0x15

/-- R104: the stage code is 00h when no cycle is in flight. -/
def stageCode : Option Cycle → Byte
  | none => 0x00
  | some c => match c.work with
    | .drill w => w.stage.code
    | .set w => w.stage.code

def Operation.code : Operation → Byte
  | .none => 0x00
  | .drill => 0x01
  | .set => 0x02

def CycleOutcome.code : CycleOutcome → Byte
  | .good => 0x00
  | .suspect => 0x01
  | .aborted => 0x02
  | .interrupted => 0x03
  | .cancelled => 0x04
  | .failed => 0x05
  | .notDone => 0x06

def Reason.code : Reason → Byte
  | .none => 0x00
  | .noContact => 0x01
  | .noBreakthrough => 0x02
  | .chipPack => 0x03
  | .overload => 0x04
  | .shift => 0x05
  | .spindle => 0x06
  | .comparator _ => 0x07
  | .noRivet => 0x08
  | .obstructed => 0x09
  | .short => 0x0A
  | .long => 0x0B
  | .slip => 0x0C
  | .halt => 0x0D
  | .spurLoss => 0x0E
  | .sectionMissing => 0x0F
  | .driveFault => 0x10
  | .toolNotHome => 0x11
  | .state => 0x12
  | .profile => 0x13
  | .limit => 0x14

/-- The comparator number of reason COMPARATOR; else 00h. -/
def Reason.comparatorByte : Reason → Byte
  | .comparator k => BitVec.ofNat 8 k
  | _ => 0x00

def Denial.code : Denial → Byte
  | .unknown => 0x01
  | .badIndex => 0x02
  | .badValue => 0x03
  | .state => 0x04
  | .inUse => 0x05
  | .order => 0x06
  | .full => 0x07
  | .duplicate => 0x08
  | .noHalfA => 0x09
  | .face => 0x0A
  | .operation => 0x0B
  | .map => 0x0C

/-- R43. -/
def HoleState.code : HoleState → Byte
  | .pending => 0x00
  | .drilling => 0x01
  | .drilled => 0x02
  | .suspect => 0x03
  | .setting => 0x04
  | .set => 0x05
  | .rejected => 0x06
  | .skipped => 0x07

/-- R43: set entry states use the codes of the hole states. -/
def EntryState.code : EntryState → Byte
  | .drilled => 0x02
  | .suspect => 0x03

/-- R79. -/
def ClaimRefusal.code : ClaimRefusal → Byte
  | .none => 0x00
  | .busy => 0x01
  | .keepOut => 0x02

/-- R99. -/
def Source.code : Source → Byte
  | .force => 0x01
  | .torque => 0x02
  | .toolPosition => 0x03
  | .toolFollowing => 0x04
  | .spindleSpeed => 0x05
  | .carriageDev => 0x06

def Source.ofCode (b : Byte) : Option Source :=
  match b.toNat with
  | 1 => some .force
  | 2 => some .torque
  | 3 => some .toolPosition
  | 4 => some .toolFollowing
  | 5 => some .spindleSpeed
  | 6 => some .carriageDev
  | _ => none

def Condition.code : Condition → Byte
  | .above => 0x00
  | .below => 0x01
  | .inside => 0x02
  | .outside => 0x03

def Condition.ofCode (b : Byte) : Option Condition :=
  match b.toNat with
  | 0 => some .above
  | 1 => some .below
  | 2 => some .inside
  | 3 => some .outside
  | _ => none

def Action.code : Action → Byte
  | .note => 0x00
  | .latch => 0x01
  | .ease => 0x02
  | .freeze => 0x03
  | .retract => 0x04

def Action.ofCode (b : Byte) : Option Action :=
  match b.toNat with
  | 0 => some .note
  | 1 => some .latch
  | 2 => some .ease
  | 3 => some .freeze
  | 4 => some .retract
  | _ => none

/-- R100. -/
def InvalidReason.code : InvalidReason → Byte
  | .noLayers => 0x01
  | .layerGap => 0x02
  | .exitWindow => 0x03
  | .breakthroughForce => 0x04
  | .overload => 0x05
  | .formedStroke => 0x06
  | .holdForce => 0x07
  | .comparatorLimits => 0x08

/-- R100, R101: the state of a profile; a profile that is not listed is EMPTY. -/
def profileStateCode : Option Profile → Byte
  | none => 0x00
  | some q => match q.state with
    | .loading => 0x01
    | .valid => 0x02
    | .invalid _ => 0x03

/-- R100, R101: the INVALID reason, 00h for none. -/
def invalidReasonCode : Option Profile → Byte
  | none => 0x00
  | some q => match q.state with
    | .loading => 0x00
    | .valid => 0x00
    | .invalid why => why.code

/-- R19: the map role codes: 00h NONE, 01h CARRIAGE, 02h TOOL, 03h STATUS, 04h RESULT_SLOT. -/
inductive RoleCode where
  | none | carriage | tool | status | resultSlot
deriving DecidableEq, Repr

def RoleCode.ofCode (b : Byte) : Option RoleCode :=
  match b.toNat with
  | 0 => some .none
  | 1 => some .carriage
  | 2 => some .tool
  | 3 => some .status
  | 4 => some .resultSlot
  | _ => Option.none

end Sys2Proof.Machine
end

