-- ==== Sys2Proof/Machine/Flags.lean ====
section
/-!
DEFINITION. Flags and flag sets: the raw, enable and enabled fault sets, the attention latch and armed flag (R165 to R167),
the saturating counters (R23, R168) and the halt condition (R151).
-/
namespace Sys2Proof.Machine

/-- R24: the numbers of the fault kinds. -/
def FaultKind.number : FaultKind → Nat
  | .frameDamaged => 0
  | .spurLoss => 1
  | .sectionMissing => 2
  | .driveFault => 3
  | .headFault => 4
  | .cycleFailed => 5
  | .cycleAborted => 6
  | .comparatorNote => 7
  | .headFrozen => 8
  | .staleAssignment => 9
  | .resultHold => 10
  | .halt => 11
  | .stackMismatch => 12
  | .jigComplete => 13
  | .profileInvalid => 14

/-- The set that holds one kind. -/
def FaultKind.bit (k : FaultKind) : BitVec 15 := BitVec.ofNat 15 (2 ^ k.number)

/-- R165: the kinds that are in both the raw set and the enable set. -/
def FaultUnit.enabled (f : FaultUnit) : BitVec 15 := f.raw &&& f.enable

/-- R167: the attention test. -/
def FaultUnit.attentionTest (f : FaultUnit) : FaultUnit :=
  if f.armed = true ∧ f.enabled ≠ 0 then { f with attention := true, armed := false } else f

/-- R167: the attention test is made when `f` has a kind in its enabled set that `before` had not. -/
def FaultUnit.testIfGained (before f : FaultUnit) : FaultUnit :=
  if f.enabled &&& ~~~before.enabled ≠ 0 then f.attentionTest else f

/-- R165: a kind is raised. -/
def FaultUnit.raise (k : FaultKind) (f : FaultUnit) : FaultUnit :=
  f.testIfGained { f with raw := f.raw ||| k.bit }

/-- R166, FAULT ENABLE. -/
def FaultUnit.replaceEnable (set : BitVec 15) (f : FaultUnit) : FaultUnit :=
  f.testIfGained { f with enable := set }

/-- R166, FAULT CLEAR. -/
def FaultUnit.clear (set : BitVec 15) (f : FaultUnit) : FaultUnit := { f with raw := f.raw &&& ~~~set }

/-- R167, ATTENTION REARM. -/
def FaultUnit.rearm (f : FaultUnit) : FaultUnit := FaultUnit.attentionTest { f with armed := true, attention := false }

/-- A block raises a fault kind (R165). -/
def Station.raise (k : FaultKind) (s : Station) : Station := { s with faults := s.faults.raise k }

/-- Fault kinds raised one after the other. -/
def Station.raiseAll (ks : List FaultKind) (s : Station) : Station := ks.foldl (fun s k => s.raise k) s

/-- R23, R168: a 32-bit counter rises by one and saturates. -/
def satInc (c : Word) : Word := if c = BitVec.allOnes 32 then c else c + 1

/-- A count that saturates at 65,535 (R104, R143). -/
def satAdd16 (c n : Nat) : Nat := min (c + n) 65535

/-- R151: the halt condition. -/
def Ring.halt (r : Ring) : Bool := r.headerHalt || r.stopPin

/-- R2: station addresses 0 and 63 make the part transparent. -/
def Ring.transparent (r : Ring) : Bool := r.address == 0 || r.address == 63

/-- The part takes frames, requests and events: RESET is released (R169) and the part is not transparent (R2). -/
def Ring.active (r : Ring) : Bool := !r.inReset && !r.transparent

end Sys2Proof.Machine
end

