-- ==== Sys2Proof/Machine/Ramp.lean ====
section
/-!
DEFINITION. The ramp generator (R108 to R112): one new setpoint per step, in exact integers.
-/
namespace Sys2Proof.Machine

/-- R108: a stage as the ramp generator sees it. -/
structure Leg where
  outward : Bool
  target : Int
  bound : Int
  /-- R108: an end speed given as 0 means the acceleration. -/
  endSpeed : Int
  margin : Int
deriving DecidableEq, Repr

/-- What a step leaves: the new setpoint, speed and phase, and whether it was a boundary step (R110). -/
structure Stepped where
  p : Int
  s : Int
  phase : Phase
  atBound : Bool
deriving DecidableEq, Repr

/-- R109: D(c, w), the distance travelled while slowing from `c` to `w` at `a` per step, not counting the step at `c`. -/
def slowDistance (a c w : Int) : Int :=
  if c ≤ w then 0
  else
    let q := (c - w) / a
    let r := (c - w) - q * a
    q * c - a * (q * (q + 1)) / 2 + (if 0 < r then w else 0)

/-- R108: the candidate speed from the current speed and the target. -/
def candidate (a s target : Int) : Int :=
  if s < target then min (s + a) target
  else if target < s then max (s - a) target
  else s

/-- R108: the end speed in force. -/
def Leg.w (a : Int) (l : Leg) : Int := if l.endSpeed = 0 then a else l.endSpeed

/-- R108: the distance from the candidate position to the boundary. -/
def Leg.remaining (l : Leg) (p c : Int) : Int := if l.outward then (p - c) - l.bound else l.bound - (p + c)

/-- R110: the new setpoint depth. -/
def Leg.advance (l : Leg) (p c : Int) : Int := if l.outward then max (p - c) l.bound else min (p + c) l.bound

/-- R108: whether a step in this phase with this candidate sends the stage to RAMP-DOWN. -/
def Leg.falls (a : Int) (l : Leg) (phase : Phase) (p c : Int) : Bool :=
  decide (phase = .run ∧ l.w a < c ∧ l.remaining p c < slowDistance a c (l.w a) + l.margin)

/-- R108, R110: one step in RUN or RAMP-DOWN. -/
def rampStep (a : Int) (l : Leg) (phase : Phase) (p s : Int) : Stepped :=
  let c := candidate a s (if phase = .rampDown then l.w a else l.target)
  let falls := l.falls a phase p c
  let c' := if falls then max (s - a) (l.w a) else c
  { p := l.advance p c'
    s := c'
    phase := if falls then .rampDown else phase
    atBound := decide (l.advance p c' = l.bound) }

/-- R112: one step in STOPPING, inward, bounded by `bound`. The phase ends at a step whose speed is 0 or that the bound cuts
short; the new stage then runs from speed 0. -/
def stoppingStep (a bound p s : Int) : Stepped :=
  let c := max (s - a) 0
  if c = 0 then { p := p, s := 0, phase := .run, atBound := false }
  else if bound < p + c then { p := bound, s := 0, phase := .run, atBound := false }
  else { p := p + c, s := c, phase := .stopping, atBound := false }

/-- R112, R147: one step of a held stop, inward, bounded by the stage's boundary; the phase is kept. -/
def heldStep (a bound : Int) (phase : Phase) (p s : Int) : Stepped :=
  let c := max (s - a) 0
  { p := if c = 0 then p else min (p + c) bound, s := c, phase := phase, atBound := false }

end Sys2Proof.Machine
end

