-- ==== Sys2Proof/Machine/Engine.lean ====
section
/-!
DEFINITION. What the drilling and the setting cycle share: the stages as legs of the ramp generator (R115, R134), the ways a
retract begins (R112, R113, R126, R140), the overload test (R125, R140) and the home test (R127, R142).
-/
namespace Sys2Proof.Machine

/-- What the part reads from a TOOL section on a return (R22). -/
structure Feedback where
  actual : Int
  force : Nat
  torque : Nat
  spindle : Nat
  status : DriveStatus
  atHome : Bool
  rivetPresent : Bool
deriving DecidableEq, Repr

/-! ## Stages as legs -/

/-- R115: the feed of layer `i`, counted from 1. -/
def DrillWork.feed (w : DrillWork) (i : Nat) : Int := ((w.layers[i - 1]?).map Layer.feed).getD 0

/-- R115: the summed thickness of the first `i` layers. -/
def DrillWork.depthTo (w : DrillWork) (i : Nat) : Int := ((w.layers.take i).map Layer.thickness).sum

/-- R115: Σt. -/
def DrillWork.stack (w : DrillWork) : Int := (w.layers.map Layer.thickness).sum

/-- R123: the boundary of PECK_OUT. -/
def DrillWork.peckOutBound (w : DrillWork) : Int := max (w.contact.getD 0 - w.prof.clearance) 0

/-- R117: S0 + CW. -/
def DrillWork.seekBound (w : DrillWork) : Int := w.surface + w.prof.contactWindow

/-- R119: E + L. -/
def DrillWork.exitBound (w : DrillWork) : Int := w.layerEnd.getD 0 + w.prof.lateLimit

/-- R115, R123: the stage as a leg. `ease` is the eased CUT stage (R146); `atSpeed` is this return's spindle test (R116). -/
def DrillWork.leg (w : DrillWork) (ease : Option Nat) (atSpeed : Bool) : Leg :=
  let f := w.prof
  match w.stage with
  | .approach =>
    { outward := false, target := f.approachSpeed, bound := w.surface - f.clearance, endSpeed := w.feed 1,
      margin := f.rampMargin }
  | .seek =>
    { outward := false, target := if atSpeed then w.feed 1 else 0, bound := w.seekBound, endSpeed := w.feed 1,
      margin := f.rampMargin }
  | .cut i =>
    { outward := false
      target := if ease = some i then f.exitSpeed else w.feed i
      bound := if i < w.layers.length then w.contact.getD 0 + w.depthTo i else w.layerEnd.getD 0 - f.exitWindow
      endSpeed := if i < w.layers.length then w.feed (i + 1) else f.exitSpeed
      margin := f.rampMargin }
  | .exit =>
    { outward := false, target := f.exitSpeed, bound := w.exitBound, endSpeed := f.exitSpeed, margin := f.rampMargin }
  | .overtravel =>
    { outward := false, target := f.exitSpeed, bound := w.breakthrough.getD 0 + f.overtravel, endSpeed := f.exitSpeed,
      margin := f.rampMargin }
  | .peckOut =>
    { outward := true, target := f.retractSpeed, bound := w.peckOutBound, endSpeed := 0, margin := 0 }
  | .peckIn =>
    { outward := false, target := f.approachSpeed, bound := max (w.peckDepth.getD 0 - f.resumeBackoff) w.peckOutBound,
      endSpeed := w.feed (w.peckLayer.getD 1), margin := f.rampMargin }
  | .retract => { outward := true, target := f.retractSpeed, bound := 0, endSpeed := 0, margin := 0 }

/-- R110: the stage runs the other way than the one whose boundary step began it, and the quill still stands at that boundary:
PECK_IN at PECK_OUT's boundary (R123), RETRACT at OVERTRAVEL's (R120). -/
def DrillWork.turning (w : DrillWork) (p : Int) : Bool :=
  match w.stage with
  | .peckIn => p == w.peckOutBound
  | .retract => (w.breakthrough.map fun pb => pb + w.prof.overtravel) == some p
  | .approach | .seek | .cut _ | .exit | .overtravel | .peckOut => false

/-- R110: the speed from which a step in RUN or RAMP-DOWN starts: 0 on the first step of a stage that has turned round. -/
def DrillWork.startSpeed (w : DrillWork) (p s : Int) : Int := if w.turning p then 0 else s

/-- R134: the boundary of ADVANCE. -/
def SetWork.advanceBound (w : SetWork) : Int := w.expected - w.prof.gripWindow - w.prof.clearance

/-- R134: the boundary of SEEK. -/
def SetWork.seekBound (w : SetWork) : Int := w.expected + w.prof.gripWindow

/-- R134: the boundary of SQUEEZE. -/
def SetWork.squeezeBound (w : SetWork) : Int :=
  max (w.contact.getD 0 + w.prof.formedMax + w.gripComp) (w.contact.getD 0)

/-- R134: the stage as a leg; none in FEED_WAIT and HOLD, in which the ram does not move. -/
def SetWork.leg (w : SetWork) : Option Leg :=
  let f := w.prof
  match w.stage with
  | .feedWait | .hold => none
  | .advance =>
    some { outward := false, target := f.advanceSpeed, bound := w.advanceBound, endSpeed := f.squeezeSpeed, margin := 0 }
  | .seek =>
    some { outward := false, target := f.squeezeSpeed, bound := w.seekBound, endSpeed := f.squeezeSpeed, margin := 0 }
  | .squeeze =>
    some { outward := false, target := f.squeezeSpeed, bound := w.squeezeBound, endSpeed := f.squeezeSpeed, margin := 0 }
  | .retract => some { outward := true, target := f.retractSpeed, bound := 0, endSpeed := 0, margin := 0 }

/-- The profile's acceleration. -/
def Work.acceleration : Work → Int
  | .drill w => w.prof.acceleration
  | .set w => w.prof.acceleration

/-- Whether the stage moves outward (R111, R115, R134). -/
def Work.outward : Work → Bool
  | .drill w => w.stage == .retract || w.stage == .peckOut
  | .set w => w.stage == .retract

/-- R110: the quill stands at a boundary from which its stage has not moved it yet. No set stage is begun so. -/
def Work.turning (p : Int) : Work → Bool
  | .drill w => w.turning p
  | .set _ => false

/-- The stage is RETRACT. -/
def Work.retracting : Work → Bool
  | .drill w => w.stage == .retract
  | .set w => w.stage == .retract

/-- The boundary of the stage; none where the tool does not move. -/
def Work.bound : Work → Option Int
  | .drill w => some (w.leg none false).bound
  | .set w => w.leg.map Leg.bound

/-! ## Stage changes -/

/-- Whether a stage is a CUT stage. -/
def DrillStage.isCut : DrillStage → Bool
  | .cut _ => true
  | _ => false

/-- A drill stage begins: the count of its detector starts at 0 (R117, R119), and the torque count is 0 outside the CUT
stages (R122). -/
def DrillWork.enter (w : DrillWork) (st : DrillStage) : DrillWork :=
  { w with
    stage := st
    contactCount := if st = .seek then 0 else w.contactCount
    breakthroughCount := if st = .exit then 0 else w.breakthroughCount
    torqueCount := if st.isCut then w.torqueCount else 0 }

/-- A set stage begins with its count at 0 (R137, R138, R139). -/
def SetWork.enter (w : SetWork) (st : SetStage) : SetWork :=
  { w with
    stage := st
    contactCount := if st = .seek then 0 else w.contactCount
    forceCount := if st = .squeeze then 0 else w.forceCount
    dwellCount := if st = .hold then 0 else w.dwellCount }

/-- The stage becomes RETRACT. -/
def Work.toRetract : Work → Work
  | .drill w => .drill (w.enter .retract)
  | .set w => .set (w.enter .retract)

/-- A retract from rest or from a boundary: RETRACT in RUN from speed 0 (R110, R126). -/
def Cycle.retractFromRest (c : Cycle) : Cycle := { c with phase := .run, s := 0, work := c.work.toRetract }

/-- R126, R140: a ramped retract. A RETRACT goes on; a STOPPING phase goes on; PECK_OUT goes on outward from its speed; a
tool at rest, at the boundary of its stage, or still at the boundary where its stage turned round retracts from speed 0 (log 10);
an inward tool first stops within its stage's boundary. -/
def Cycle.rampedRetract (c : Cycle) : Cycle :=
  if c.work.retracting then c
  else if c.phase = .stopping then { c with work := c.work.toRetract }
  else if c.work.outward then { c with phase := .run, work := c.work.toRetract }
  else
    match c.work.bound with
    | none => c.retractFromRest
    | some b =>
      if c.s = 0 ∨ c.p = b ∨ c.work.turning c.p = true then c.retractFromRest
      else { c with phase := .stopping, stopBound := b, work := c.work.toRetract }

/-- R113: an immediate stop: the pending setpoint is the sent setpoint again (left as it stands where the frame carried none),
and the stage becomes RETRACT in RUN from speed 0. -/
def Cycle.immediateStop (c : Cycle) : Cycle := { c.retractFromRest with p := c.sent.getD c.p }

/-- R147, R148: the counts that a freeze holds at 0. -/
def Work.zeroCounts : Work → Work
  | .drill w => .drill { w with contactCount := 0, breakthroughCount := 0, torqueCount := 0 }
  | .set w => .set { w with contactCount := 0, forceCount := 0, dwellCount := 0 }

/-! ## A cycle return in progress -/

/-- How a cycle return leaves the cycle: going on, confirmed home, or out of home waits (R127). -/
inductive Verdict where
  | going | home | lost
deriving DecidableEq, Repr

/-- A cycle return while the engine works through its list (R107, R131). -/
structure Run where
  cyc : Cycle
  state : HeadState
  bank : Bank
  raised : List FaultKind
  /-- The step of this return has been taken already, or a stop takes its place (R113, R138). -/
  stepDone : Bool
  verdict : Verdict
deriving DecidableEq, Repr

/-- R107: a cycle return begins; an immediate stop of this frame's CARRIAGE return leaves no step to take (R113). -/
def Run.begin (c : Cycle) (st : HeadState) (b : Bank) : Run :=
  { cyc := c, state := st, bank := b, raised := [], stepDone := c.stopped, verdict := .going }

/-- A part of the list that concerns a drilling cycle. -/
def Run.onDrill (f : DrillWork → Run → Run) (r : Run) : Run :=
  match r.cyc.work with
  | .drill w => f w r
  | .set _ => r

/-- A part of the list that concerns a setting cycle. -/
def Run.onSet (f : SetWork → Run → Run) (r : Run) : Run :=
  match r.cyc.work with
  | .drill _ => r
  | .set w => f w r

/-- The drilling items of the record are replaced. -/
def Run.putDrill (r : Run) (w : DrillWork) : Run := { r with cyc := { r.cyc with work := .drill w } }

/-- The setting items of the record are replaced. -/
def Run.putSet (r : Run) (w : SetWork) : Run := { r with cyc := { r.cyc with work := .set w } }

/-- R126, R141: an outcome is decided, and the head goes to RETRACTING in the same event (R78). -/
def Run.conclude (r : Run) (o : CycleOutcome) (why : Reason) : Run :=
  { r with cyc := { r.cyc with decision := some (o, why) }, state := .retracting }

/-- A stop of the kind "ramped". -/
def Run.ramped (r : Run) : Run := { r with cyc := r.cyc.rampedRetract }

/-- A stop of the kind "retract from rest" or "from the boundary". -/
def Run.fromRest (r : Run) : Run := { r with cyc := r.cyc.retractFromRest }

/-- A stop of the kind "immediate" (R113): it takes the place of this return's step. -/
def Run.immediate (r : Run) : Run := { r with cyc := r.cyc.immediateStop, stepDone := true }

/-- R125, R140: the overload test. -/
def Run.overload (fb : Feedback) (limit : Nat) (r : Run) : Run :=
  if limit < fb.force then
    match r.cyc.decision with
    | some (.failed, why) => (r.conclude .failed why).immediate
    | _ => (r.conclude .failed .overload).immediate
  else r

/-- R127, R142: the home test of HOME WAIT, on a return whose frame carried 0. -/
def Run.homeTest (fb : Feedback) (band : Int) (r : Run) : Run :=
  if r.cyc.phase = .homeWait ∧ r.cyc.sent = some 0 then
    if fb.actual ≤ band ∧ fb.atHome = true then { r with verdict := .home }
    else
      { r with
        cyc := { r.cyc with homeWait := r.cyc.homeWait + 1 }
        verdict := if 1000 < r.cyc.homeWait + 1 then .lost else .going }
  else r

/-- What a step leaves goes into the record. -/
def Run.stepped (r : Run) (d : Stepped) : Run := { r with cyc := { r.cyc with p := d.p, s := d.s, phase := d.phase } }

end Sys2Proof.Machine
end

