-- ==== Sys2Proof/Machine/Operands.lean ====
section
/-!
DEFINITION. Operands: numbers in the ring's fields, the payloads of sections (section 1.9), the frame check (R3), and a frame's
structure test (R4).
-/
namespace Sys2Proof.Machine

/-! ## Numbers in fields -/

/-- A signed µm value as four bytes (R24). -/
def um (v : Int) : List Byte := bytes32 (BitVec.ofInt 32 v)

/-- A count as one byte. -/
def u8 (n : Nat) : List Byte := [BitVec.ofNat 8 n]

/-- A count as two bytes (R24). -/
def u16 (n : Nat) : List Byte := bytes16 (BitVec.ofNat 16 n)

/-- The signed four-byte field at offset `o`. -/
def intAt (l : List Byte) (o : Nat) : Int := (wordAt l o).toInt

/-- The unsigned two-byte field at offset `o`. -/
def natAt16 (l : List Byte) (o : Nat) : Nat := (halfAt l o).toNat

/-- Integers are clamped to a range (R57, R100, R157): below takes the low end, above the high end. -/
def clampInt (lo hi v : Int) : Int := if v < lo then lo else if hi < v then hi else v

/-- The same for unsigned values. -/
def clampNat (lo hi v : Nat) : Nat := if v < lo then lo else if hi < v then hi else v

/-- A head, group or the like named by a byte: BAD_INDEX above 3. -/
def four? (b : Byte) : Option (Fin 4) := if h : b.toNat < 4 then some ⟨b.toNat, h⟩ else none

/-- A profile number or the absent code FFh (R32): none for any other byte. -/
def profileArg (b : Byte) : Option (Option Nat) :=
  if b.toNat ≤ 31 then some (some b.toNat) else if b = 0xFF then some none else none

/-- The byte of a profile number, FFh when absent (R43). -/
def profileByte : Option Nat → Byte
  | some n => BitVec.ofNat 8 n
  | none => 0xFF

/-! ## The frame check -/

/-- R3: one bit of the reflected CRC-32 register (04C11DB7h reflected is EDB88320h). -/
def crcBit (r : Nat) : Nat := if r % 2 = 1 then (r / 2) ^^^ 0xEDB88320 else r / 2

/-- R3: one byte, least significant bit first. -/
def crcByte (r b : Nat) : Nat := crcBit (crcBit (crcBit (crcBit (crcBit (crcBit (crcBit (crcBit (r ^^^ b))))))))

/-- R3: the register after a list of bytes. The register never leaves 32 bits, so the test always holds; it makes Lean's
kernel evaluate the register byte by byte. -/
def crcRegister : List Byte → Nat → Nat
  | [], r => r
  | b :: bs, r => if crcByte r b.toNat < 2 ^ 32 then crcRegister bs (crcByte r b.toNat) else 0

/-- R3: the check over some bytes: preset to FFFFFFFFh, complemented at the end. -/
def crc32 (l : List Byte) : Word := BitVec.ofNat 32 (crcRegister l 0xFFFFFFFF ^^^ 0xFFFFFFFF)

/-- R3, R6: bytes followed by their check, least significant byte first. -/
def withCheck (l : List Byte) : List Byte := l ++ bytes32 (crc32 l)

/-- R3: the check in the last four bytes is the one computed over the bytes before them. -/
def checkPasses (frame : List Byte) : Bool :=
  frame == withCheck (frame.take (frame.length - 4))

/-! ## Frames -/

/-- A section of a frame: its id and its payload. -/
structure Sect where
  id : Nat
  payload : List Byte
deriving DecidableEq, Repr

/-- A sound CYCLE frame: the seven header bytes and the sections. -/
structure Frame where
  header : List Byte
  sections : List Sect
deriving DecidableEq, Repr

/-- R7: bit 0 of the line flags. -/
def Frame.halt (f : Frame) : Bool := (byteAt f.header 1).getLsbD 0

/-- R24: the sequence, header bytes 2 and 3. -/
def Frame.seq (f : Frame) : Half := halfAt f.header 2

/-- R4: walks `n` sections that must take up all the bytes; none when an id is 0 or 255 or the lengths do not add up. -/
def walkSections : Nat → List Byte → Option (List Sect)
  | 0, [] => some []
  | 0, _ :: _ => none
  | n + 1, id :: len :: rest =>
    if id = 0 ∨ id = 255 then none
    else if rest.length < len.toNat then none
    else (walkSections n (rest.drop len.toNat)).map fun t => { id := id.toNat, payload := rest.take len.toNat } :: t
  | _ + 1, _ => none

/-- What arrives on a port, after the check and the structure test of section 1.2. -/
inductive Arrival where
  /-- R5: fails its check or its structure test. -/
  | damaged
  /-- R1: sound, of a kind that is not CYCLE. -/
  | other
  | cycle (f : Frame)
deriving DecidableEq, Repr

/-- R3, R4: the check, then the structure test. -/
def classify (frame : List Byte) : Arrival :=
  if frame.length < 13 ∨ 1500 < frame.length then .damaged
  else if checkPasses frame = false then .damaged
  else if (halfAt frame 4).toNat ≠ frame.length then .damaged
  else if byteAt frame 0 ≠ 1 then .other
  else if byteAt frame 6 = 0 ∨ 48 < (byteAt frame 6).toNat then .damaged
  else
    match walkSections (byteAt frame 6).toNat ((frame.take (frame.length - 4)).drop 7) with
    | none => .damaged
    | some sections => .cycle { header := frame.take 7, sections }

/-- A section with its section header. -/
def Sect.bytes (x : Sect) : List Byte := BitVec.ofNat 8 x.id :: BitVec.ofNat 8 x.payload.length :: x.payload

/-- R6: a taken frame as it leaves, with a fresh check. -/
def Frame.bytes (f : Frame) : List Byte := withCheck (f.header ++ f.sections.flatMap Sect.bytes)

/-- R13: the payload length of a role. -/
def Role.length : Role → Nat
  | .carriage _ => 18
  | .tool _ => 20
  | .status => 32
  | .resultSlot => 48

/-- R13: the payload length of a management section. -/
def mgmtLength : Nat := 80

/-! ## Payloads -/

/-- The setpoints of a CARRIAGE payload. -/
def carriageSetpoint (l : List Byte) : Spot := { x := intAt l 0, t := intAt l 4 }

/-- The actual position of a CARRIAGE payload. -/
def carriageActual (l : List Byte) : Spot := { x := intAt l 8, t := intAt l 12 }

/-- The drive status of a CARRIAGE payload. -/
def carriageStatus (l : List Byte) : DriveStatus := .ofCode (byteAt l 17)

/-- R14, R84: a CARRIAGE payload as it leaves on the outbound pass: the setpoints and GATED written. -/
def carriageOut (l : List Byte) (sp : Spot) (gated : Bool) : List Byte :=
  um sp.x ++ um sp.t ++ (l.drop 8).take 8 ++ [flagByte gated] ++ l.drop 17

/-- R14: a TOOL payload as it leaves: tool mode, spindle on, setpoint position and spindle command written. -/
def toolOut (l : List Byte) (mode : Byte) (spindleOn : Bool) (position : Int) (command : Nat) : List Byte :=
  [mode, flagByte spindleOn] ++ um position ++ u16 command ++ l.drop 8

/-- R22: the feedback of a TOOL payload. -/
def toolFeedback (l : List Byte) : Feedback :=
  { actual := intAt l 8
    force := natAt16 l 12
    torque := natAt16 l 14
    spindle := natAt16 l 16
    status := .ofCode (byteAt l 18)
    atHome := (byteAt l 19).getLsbD 0
    rivetPresent := (byteAt l 19).getLsbD 1 }

/-- The four bytes of a latched source value: as a signed field where it fits, else free (log 9). -/
def latchSourceField (v : Int) : Word :=
  if -2147483648 ≤ v ∧ v ≤ 2147483647 then BitVec.ofInt 32 v else Config.latchSourceBeyondField v

/-- R24: the latch of a RESULT_SLOT payload, 9 bytes, 00h when absent. -/
def latchBytes : Option Latch → List Byte
  | none => List.replicate 9 0
  | some l => u8 l.comparator ++ um l.setpoint ++ bytes32 (latchSourceField l.source)

/-- R24: the drill or set group of a RESULT_SLOT payload. -/
def groupBytes : CycleGroup → List Byte
  | .none => []
  | .drill g =>
    um g.contact ++ um g.breakthrough ++ um g.stack ++ u16 g.peakForce ++ u16 g.peakTorque ++ u8 g.pecks ++ u16 g.overTorque
  | .set g =>
    um g.contact ++ um g.final ++ um g.formed ++ u16 g.peakForce ++ u16 g.dwell ++ bytes16 (BitVec.ofInt 16 g.gripComp)

/-- R24: groups present: bit 0 latch, bit 1 drill, bit 2 set. -/
def Result.groupsPresent (r : Result) : Byte :=
  (if r.latch.isSome then 1 else 0) ||| (match r.group with
    | .none => 0
    | .drill _ => 2
    | .set _ => 4)

/-- R24, R160: bytes 1 to 47 of the RESULT_SLOT payload that carries a record. -/
def Result.bytes (r : Result) : List Byte :=
  padTo 47
    ([r.groupsPresent] ++ bytes32 r.jigId ++ u16 r.hole ++ u8 r.head.val
      ++ [r.operation.code, r.outcome.code, r.reason.code, r.reason.comparatorByte]
      ++ u8 r.attempt ++ bytes16 r.sequence ++ u16 r.notes ++ latchBytes r.latch ++ groupBytes r.group)

/-- R162: the MGMT payload with an answer written into it: code, reason, data, then 00h. -/
def answerOut (l : List Byte) (a : Reply) : List Byte :=
  match a with
  | .done data => l.take 2 ++ [0x01, 0x00] ++ padTo 76 data
  | .clamped data => l.take 2 ++ [0x02, 0x00] ++ padTo 76 data
  | .refused why => l.take 2 ++ [0x03, why.code] ++ padTo 76 []

end Sys2Proof.Machine
end

