-- ==== Sys2Proof/Machine/Comparators.lean ====
section
/-!
DEFINITION. The Comparator Bank: evaluation on a cycle return (R144) and the combined action it hands to the engine
(R145 to R150).
-/
namespace Sys2Proof.Machine

/-- R99: the stage mask bit of a drill stage. -/
def DrillStage.maskBit : DrillStage → Nat
  | .approach => 0
  | .seek => 1
  | .cut i => i + 1
  | .exit => 8
  | .overtravel => 9
  | .peckOut => 10
  | .peckIn => 11
  | .retract => 12

/-- R99: the stage mask bit of a set stage. -/
def SetStage.maskBit : SetStage → Nat
  | .feedWait => 0
  | .advance => 1
  | .seek => 2
  | .squeeze => 3
  | .hold => 4
  | .retract => 5

/-- The mask bit of the stage a cycle is in. -/
def Work.maskBit : Work → Nat
  | .drill w => w.stage.maskBit
  | .set w => w.stage.maskBit

/-- R144: the value of a source on this return. -/
def sourceValue (fb : Feedback) (sent hold : Int) : Source → Int
  | .force => fb.force
  | .torque => fb.torque
  | .toolPosition => fb.actual
  | .toolFollowing => sent - fb.actual
  | .spindleSpeed => fb.spindle
  | .carriageDev => hold

/-- R99: whether a condition holds of a value. -/
def Comparator.holds (k : Comparator) (v : Int) : Bool :=
  match k.condition with
  | .above => decide (k.low < v)
  | .below => decide (v < k.low)
  | .inside => decide (k.low ≤ v ∧ v ≤ k.high)
  | .outside => decide (v < k.low ∨ k.high < v)

/-- R144: the comparator is tested in this stage and its condition holds on this return. -/
def LiveComparator.true? (fb : Feedback) (sent hold : Int) (bit : Nat) (l : LiveComparator) : Bool :=
  l.record.mask.getLsbD bit && l.record.holds (sourceValue fb sent hold l.record.source)

/-- R144: the comparator fires on this return. -/
def LiveComparator.fires (fb : Feedback) (sent hold : Int) (bit : Nat) (l : LiveComparator) : Bool :=
  l.true? fb sent hold bit && decide (l.record.count ≤ l.count + 1) && !l.fired

/-- R144: the count and the fired mark after this return. -/
def LiveComparator.next (fb : Feedback) (sent hold : Int) (bit : Nat) (l : LiveComparator) : LiveComparator :=
  if l.true? fb sent hold bit then
    { l with count := min (l.count + 1) l.record.count, fired := l.fired || l.fires fb sent hold bit }
  else { l with count := 0, fired := false }

/-- Among the comparators that fired, those with an action. -/
def withAction (a : Action) (fired : List LiveComparator) : List LiveComparator :=
  fired.filter fun l => l.record.action == a

/-- R145: `n` NOTEs: COMPARATOR_NOTE is raised and the note count rises. -/
def Run.note (n : Nat) (r : Run) : Run :=
  if n = 0 then r
  else { r with bank := { r.bank with notes := satAdd16 r.bank.notes n }, raised := .comparatorNote :: r.raised }

/-- R145: a LATCH fills an empty latch, with the lowest number of those that fired. -/
def Run.latch (fb : Feedback) (sent hold : Int) (latches : List LiveComparator) (r : Run) : Run :=
  match r.bank.latch, latches with
  | none, l :: _ =>
    { r with
      bank :=
        { r.bank with
          latch := some { comparator := l.slot, setpoint := sent, source := sourceValue fb sent hold l.record.source } } }
  | _, _ => r

/-- R150: RETRACT. Once an outcome is decided it acts as NOTE. -/
def Run.actRetract (k : Nat) (r : Run) : Run :=
  match r.cyc.decision with
  | some _ => r.note 1
  | none => (r.conclude .failed (.comparator k)).immediate

/-- R147: every comparator count becomes 0 and every fired mark is cleared. -/
def Bank.rest (b : Bank) : Bank := { b with live := b.live.map fun l => { l with count := 0, fired := false } }

/-- R147: FREEZE has no effect in PECK_OUT and PECK_IN. -/
def Work.pecking : Work → Bool
  | .drill w => w.stage == .peckOut || w.stage == .peckIn
  | .set _ => false

/-- R147, R150: FREEZE. -/
def Run.actFreeze (r : Run) : Run :=
  if r.cyc.decision = none ∧ r.state = .engaged ∧ r.cyc.work.pecking = false then
    { r with
      state := .frozen
      cyc := { r.cyc with work := r.cyc.work.zeroCounts }
      bank := r.bank.rest
      raised := .headFrozen :: r.raised }
  else r

/-- The CUT stage a cycle is in. -/
def Work.cutStage : Work → Option Nat
  | .drill w => match w.stage with
    | .cut i => some i
    | _ => none
  | .set _ => none

/-- R146, R150: EASE, in a CUT stage with no outcome decided; elsewhere it acts as NOTE. -/
def Run.actEase (r : Run) : Run :=
  match r.cyc.decision, r.cyc.work.cutStage with
  | none, some i => { r with bank := { r.bank with ease := some i } }
  | _, _ => r.note 1

/-- R145: at most one of RETRACT, FREEZE and EASE acts on a return, in that precedence. -/
def Run.actOne (fired : List LiveComparator) (r : Run) : Run :=
  match withAction .retract fired, withAction .freeze fired, withAction .ease fired with
  | l :: _, _, _ => r.actRetract l.slot
  | [], _ :: _, _ => r.actFreeze
  | [], [], _ :: _ => r.actEase
  | [], [], [] => r

/-- R145: all comparators that fired on this return act together. -/
def Run.act (fb : Feedback) (sent hold : Int) (fired : List LiveComparator) (r : Run) : Run :=
  ((r.note (withAction .note fired).length).latch fb sent hold (withAction .latch fired)).actOne fired

/-- R144, R145: evaluation and action on a cycle return. `st` and `bit` are the head state and the stage's mask bit when the
TOOL return was taken; no evaluation is made while the head was FROZEN (R147). The return on which the cycle ends is a cycle return
like any other here: only its step is left out (R107; log 12). -/
def Run.comparators (fb : Feedback) (sent hold : Int) (st : HeadState) (bit : Nat) (r : Run) : Run :=
  if st = .engaged ∨ st = .retracting then
    Run.act fb sent hold (r.bank.live.filter fun l => l.fires fb sent hold bit)
      { r with bank := { r.bank with live := r.bank.live.map fun l => l.next fb sent hold bit } }
  else r

end Sys2Proof.Machine
end

