-- ==== Sys2Proof/Machine/Drill.lean ====
section
/-!
DEFINITION. The drilling cycle (chapter 7): the tests of a cycle return in the order of R107, and its step.
-/
namespace Sys2Proof.Machine

/-- R124: the peaks and the over-torque returns. -/
def Run.recordDrill (fb : Feedback) (r : Run) : Run :=
  Run.onDrill (fun w r =>
    let counts := (w.stage.isCut || w.stage == .exit) && decide (w.prof.chipLoadTorque ≠ 0)
      && decide (w.prof.chipLoadTorque < fb.torque)
    { r with
      cyc :=
        { r.cyc with
          peakForce := max r.cyc.peakForce fb.force
          work := .drill
            { w with
              peakTorque := max w.peakTorque fb.torque
              overTorque := if counts then satAdd16 w.overTorque 1 else w.overTorque } } }) r

/-- R116: the spindle is within 5 % of its command. -/
def atSpeed (fb : Feedback) (command : Nat) : Bool :=
  decide (((fb.spindle : Int) - command).natAbs * 20 ≤ command)

/-- R116: the spindle test, made on every cycle return (log 14), and the spin-up test, made while the head is ENGAGED and contact
is not recognised, so that a FROZEN head is not tested against the limit (R147). -/
def Run.spindle (fb : Feedback) (r : Run) : Run :=
  Run.onDrill (fun w r =>
    let ready := w.spindleReady || atSpeed fb w.prof.spindleSpeed
    let r := r.putDrill { w with spindleReady := ready }
    if r.state = .engaged ∧ w.contact = none ∧ w.prof.spinUpLimit < r.cyc.frames ∧ ready = false then
      (r.conclude .aborted .spindle).ramped
    else r) r

/-- R117: the contact test and the boundary test of SEEK. -/
def Run.seekTest (fb : Feedback) (sent : Int) (w : DrillWork) (r : Run) : Run :=
  let n := if w.prof.contactForce ≤ fb.force then w.contactCount + 1 else 0
  let w := { w with contactCount := n }
  if w.prof.contactCount ≤ n then
    let w := { w with contact := some sent, layerEnd := some (sent + w.stack) }
    { r with cyc := { r.cyc with phase := .run, work := .drill (w.enter (.cut 1)) } }
  else if sent = w.seekBound then ((r.putDrill w).conclude .aborted .noContact).fromRest
  else r.putDrill w

/-- R122, R123: the torque test of a CUT stage, and the chip-load trip. -/
def Run.torqueTest (fb : Feedback) (sent : Int) (i : Nat) (w : DrillWork) (r : Run) : Run :=
  if w.prof.chipLoadTorque = 0 then r.putDrill { w with torqueCount := 0 }
  else
    let n := if w.prof.chipLoadTorque < fb.torque then w.torqueCount + 1 else 0
    if w.prof.torqueCount ≤ n then
      let w := { w with torqueCount := 0 }
      if w.prof.maxPecks ≤ w.pecks then ((r.putDrill w).conclude .failed .chipPack).immediate
      else
        let bound := (w.leg none false).bound
        let w := { w with pecks := w.pecks + 1, peckDepth := some sent, peckLayer := some i }
        { r with
          cyc := { r.cyc with phase := .stopping, stopBound := bound, work := .drill (w.enter .peckOut) } }
    else r.putDrill { w with torqueCount := n }

/-- R119: the breakthrough test and the boundary test of EXIT. -/
def Run.exitTest (fb : Feedback) (sent : Int) (w : DrillWork) (r : Run) : Run :=
  let n := if fb.force ≤ w.prof.breakthroughForce then w.breakthroughCount + 1 else 0
  let w := { w with breakthroughCount := n }
  if w.prof.breakthroughCount ≤ n then
    { r with
      cyc := { r.cyc with phase := .run, work := .drill ({ w with breakthrough := some sent }.enter .overtravel) } }
  else if sent = w.exitBound then ((r.putDrill w).conclude .failed .noBreakthrough).immediate
  else r.putDrill w

/-- R107 item 4: the tests of the current stage; none while FROZEN (R147). -/
def Run.drillTests (fb : Feedback) (sent band : Int) (r : Run) : Run :=
  if r.state = .frozen then r
  else
    Run.onDrill (fun w r =>
      match w.stage with
      | .seek => r.seekTest fb sent w
      | .cut i => r.torqueTest fb sent i w
      | .exit => r.exitTest fb sent w
      | .retract => r.homeTest fb band
      | .approach | .overtravel | .peckOut | .peckIn => r) r

/-- The next stage takes over in RUN. The speed stays that of the boundary step; a stage that runs the other way makes its first
step from speed 0 (R110, DrillWork.startSpeed). -/
def Run.nextStage (w : DrillWork) (st : DrillStage) (r : Run) : Run :=
  { r with cyc := { r.cyc with phase := .run, work := .drill (w.enter st) } }

/-- R120: the outcome of OVERTRAVEL's boundary step; the stage becomes RETRACT. -/
def Run.stackCheck (w : DrillWork) (r : Run) : Run :=
  if (((w.breakthrough.getD 0 - w.contact.getD 0) - w.stack).natAbs : Int) ≤ w.prof.stackTolerance then
    (r.nextStage w .retract).conclude .good .none
  else
    let r := (r.nextStage w .retract).conclude .suspect .none
    { r with raised := .stackMismatch :: r.raised }

/-- R110, R115, R120, R123, R127: what a boundary step brings. In SEEK and EXIT it leaves the stage running. -/
def Run.drillBoundary (w : DrillWork) (r : Run) : Run :=
  match w.stage with
  | .approach => r.nextStage w .seek
  | .seek | .exit => r
  | .cut i =>
    let r := { r with bank := { r.bank with ease := if r.bank.ease = some i then none else r.bank.ease } }
    r.nextStage w (if i < w.layers.length then .cut (i + 1) else .exit)
  | .overtravel => r.stackCheck w
  | .peckOut => r.nextStage w .peckIn
  | .peckIn => r.nextStage w (.cut (w.peckLayer.getD 1))
  | .retract => { r with cyc := { r.cyc with phase := .homeWait } }

/-- R107 item 6: the step of this return. -/
def Run.drillStep (fb : Feedback) (r : Run) : Run :=
  if r.stepDone = true ∨ r.verdict ≠ .going then r
  else
    Run.onDrill (fun w r =>
      let a := w.prof.acceleration
      let l := w.leg r.bank.ease (atSpeed fb w.prof.spindleSpeed)
      if r.state = .frozen then r.stepped (heldStep a l.bound r.cyc.phase r.cyc.p r.cyc.s)
      else
        match r.cyc.phase with
        | .homeWait => r
        | .stopping => r.stepped (stoppingStep a r.cyc.stopBound r.cyc.p r.cyc.s)
        | .run | .rampDown =>
          let d := rampStep a l r.cyc.phase r.cyc.p (w.startSpeed r.cyc.p r.cyc.s)
          if d.atBound then (r.stepped d).drillBoundary w else r.stepped d) r

/-- R107: a cycle return of a drilling cycle. -/
def drillReturn (fb : Feedback) (sent hold band : Int) (limit bit : Nat) (st : HeadState) (r : Run) : Run :=
  ((((((r.recordDrill fb).overload fb limit).spindle fb).drillTests fb sent band).comparators fb sent hold st bit).drillStep fb)

end Sys2Proof.Machine
end

