-- ==== Sys2Proof/Machine/SetCycle.lean ====
section
/-!
DEFINITION. The rivet setting cycle (chapter 8): the tests of a cycle return in the order of R131, and its step; then the
return of a cycle of either kind, and what a cycle hands over at its end.
-/
namespace Sys2Proof.Machine

/-- R131: the peak force (item 1), and the spindle actual, which is recorded and not tested (log 29). -/
def Run.recordSet (fb : Feedback) (r : Run) : Run :=
  Run.onSet (fun w r =>
    { r with
      cyc :=
        { r.cyc with
          peakForce := max r.cyc.peakForce fb.force
          work := .set { w with spindleActual := some fb.spindle } } }) r

/-- R135: the test of FEED_WAIT. -/
def Run.feedTest (present : Bool) (w : SetWork) (r : Run) : Run :=
  if present then { r with cyc := { r.cyc with phase := .run, s := 0, work := .set (w.enter .advance) } }
  else if w.prof.feedLimit < r.cyc.frames then (r.conclude .aborted .noRivet).fromRest
  else r

/-- R136: the obstruction test of ADVANCE. -/
def Run.obstructionTest (fb : Feedback) (w : SetWork) (r : Run) : Run :=
  if w.prof.contactForce ≤ fb.force then (r.conclude .failed .obstructed).immediate else r

/-- R137: the contact test and the boundary test of SEEK. -/
def Run.rivetTest (fb : Feedback) (sent : Int) (w : SetWork) (r : Run) : Run :=
  let n := if w.prof.contactForce ≤ fb.force then w.contactCount + 1 else 0
  let w := { w with contactCount := n }
  if w.prof.contactCount ≤ n then
    let w := { w with contact := some sent }
    if sent < w.expected - w.prof.gripWindow then ((r.putSet w).conclude .failed .obstructed).immediate
    else { r with cyc := { r.cyc with phase := .run, work := .set (w.enter .squeeze) } }
  else if sent = w.seekBound then ((r.putSet w).conclude .aborted .noRivet).fromRest
  else r.putSet w

/-- R138: the set-force test and the boundary test of SQUEEZE. The return that recognises set force takes its own step, of
distance 0 at r_f, and the stage becomes HOLD in the same event, or RETRACT when the rivet is SHORT (log 13). -/
def Run.squeezeTest (fb : Feedback) (sent : Int) (w : SetWork) (r : Run) : Run :=
  let n := if w.prof.setForce ≤ fb.force then w.forceCount + 1 else 0
  let w := { w with forceCount := n }
  if w.prof.contactCount ≤ n then
    let w := { w with setStroke := some sent }
    if sent - w.contact.getD 0 < w.prof.formedMin + w.gripComp then
      let r := ((r.putSet w).conclude .failed .short).fromRest
      { r with cyc := { r.cyc with p := sent }, stepDone := true }
    else
      { r with
        cyc := { r.cyc with phase := .run, p := sent, s := 0, work := .set (w.enter .hold) }
        stepDone := true }
  else if sent = w.squeezeBound then ((r.putSet w).conclude .failed .long).fromRest
  else r.putSet w

/-- R139: the slip and dwell tests of HOLD. -/
def Run.dwellTest (force : Nat) (w : SetWork) (r : Run) : Run :=
  if force < w.prof.holdForce then (r.conclude .failed .slip).fromRest
  else
    let r := r.putSet { w with dwellCount := w.dwellCount + 1 }
    if w.prof.dwell ≤ w.dwellCount + 1 then (r.conclude .good .none).fromRest else r

/-- R131 item 3: the tests of the current stage; none while FROZEN (R147). -/
def Run.setTests (fb : Feedback) (sent band : Int) (r : Run) : Run :=
  if r.state = .frozen then r
  else
    Run.onSet (fun w r =>
      match w.stage with
      | .feedWait => r.feedTest fb.rivetPresent w
      | .advance => r.obstructionTest fb w
      | .seek => r.rivetTest fb sent w
      | .squeeze => r.squeezeTest fb sent w
      | .hold => r.dwellTest fb.force w
      | .retract => r.homeTest fb band) r

/-- R134, R142: what a boundary step brings. SEEK and SQUEEZE are ended by their tests. -/
def Run.setBoundary (w : SetWork) (r : Run) : Run :=
  match w.stage with
  | .advance => { r with cyc := { r.cyc with phase := .run, work := .set (w.enter .seek) } }
  | .retract => { r with cyc := { r.cyc with phase := .homeWait } }
  | .feedWait | .seek | .squeeze | .hold => r

/-- R131 item 5: the step of this return. FEED_WAIT and HOLD keep their setpoint with speed 0 (R135, R139). -/
def Run.setStep (r : Run) : Run :=
  if r.stepDone = true ∨ r.verdict ≠ .going then r
  else
    Run.onSet (fun w r =>
      let a := w.prof.acceleration
      match w.leg with
      | none => { r with cyc := { r.cyc with s := 0 } }
      | some l =>
        if r.state = .frozen then r.stepped (heldStep a l.bound r.cyc.phase r.cyc.p r.cyc.s)
        else
          match r.cyc.phase with
          | .homeWait => r
          | .stopping => r.stepped (stoppingStep a r.cyc.stopBound r.cyc.p r.cyc.s)
          | .run | .rampDown =>
            let d := rampStep a l r.cyc.phase r.cyc.p r.cyc.s
            if d.atBound then (r.stepped d).setBoundary w else r.stepped d) r

/-- R131: a cycle return of a setting cycle. -/
def setReturn (fb : Feedback) (sent hold band : Int) (limit bit : Nat) (st : HeadState) (r : Run) : Run :=
  (((((r.recordSet fb).overload fb limit).setTests fb sent band).comparators fb sent hold st bit).setStep)

/-- R107, R131: a cycle return, for a frame that carried the setpoint `sent`. -/
def cycleReturn (fb : Feedback) (sent hold band : Int) (st : HeadState) (b : Bank) (c : Cycle) : Run :=
  match c.work with
  | .drill w => drillReturn fb sent hold band w.prof.overloadForce w.stage.maskBit st (.begin c st b)
  | .set w => setReturn fb sent hold band w.prof.overloadForce w.stage.maskBit st (.begin c st b)

/-! ## The start and the end of a cycle -/

/-- R104: the items a cycle begins with, for either kind. -/
def Cycle.begin (hole : Nat) (work : Work) : Cycle :=
  { hole, phase := .run, p := 0, s := 0, stopBound := 0, sent := none, frames := 0, peakForce := 0, homeWait := 0,
    decision := none, begun := false, stopped := false, work }

/-- R105: a drilling cycle. -/
def beginDrill (hole : Nat) (f : DrillFields) (layers : Table Layer) (surface : Int) : Cycle :=
  .begin hole (.drill
    { prof := f, layers := layers.map Prod.snd, surface, stage := .approach, spindleReady := false, contactCount := 0,
      breakthroughCount := 0, torqueCount := 0, contact := none, layerEnd := none, breakthrough := none,
      peckDepth := none, pecks := 0, peckLayer := none, peakTorque := 0, overTorque := 0 })

/-- R132: the grip compensation. -/
def gripCompensation (nominal : Int) (m : Option Measured) : Int :=
  match m with
  | none => 0
  | some m => max (-2000) (min 2000 (nominal - m.grip))

/-- R130: a setting cycle. The mark and the over-torque returns begin as the record with no cycle has them: clear and 0 (R104,
R128; log 30). -/
def beginSet (hole : Nat) (f : SetFields) (expected : Int) (m : Option Measured) : Cycle :=
  .begin hole (.set
    { prof := f, expected, gripComp := gripCompensation f.nominalGrip m, stage := .feedWait, spindleReady := false,
      contactCount := 0, forceCount := 0, dwellCount := 0, contact := none, setStroke := none, deepest := 0, overTorque := 0,
      spindleActual := none })

/-- R126, R141: contact was recognised before the cycle ended. -/
def Cycle.afterContact (c : Cycle) : Bool :=
  match c.work with
  | .drill w => w.contact.isSome
  | .set w => w.contact.isSome

/-- R128: the measured values of a drilling cycle, where both depths are there. -/
def Cycle.measured (c : Cycle) : Option Measured :=
  match c.work with
  | .drill w => match w.contact, w.breakthrough with
    | some pc, some pb => some { contact := pc, breakthrough := pb, grip := pb - pc }
    | _, _ => none
  | .set _ => none

/-- R155: DRILL or SET. -/
def Cycle.operation (c : Cycle) : Operation :=
  match c.work with
  | .drill _ => .drill
  | .set _ => .set

/-- R128, R142: the group of the result record. -/
def Cycle.group (c : Cycle) : CycleGroup :=
  match c.work with
  | .drill w =>
    .drill
      { contact := w.contact.getD 0
        breakthrough := w.breakthrough.getD 0
        stack := match w.contact, w.breakthrough with
          | some pc, some pb => pb - pc
          | _, _ => 0
        peakForce := c.peakForce
        peakTorque := w.peakTorque
        pecks := w.pecks
        overTorque := w.overTorque }
  | .set w =>
    .set
      { contact := w.contact.getD 0
        final := w.deepest
        formed := match w.contact, w.setStroke with
          | some rc, some rf => rf - rc
          | _, _ => 0
        peakForce := c.peakForce
        dwell := w.dwellCount
        gripComp := w.gripComp }

/-- R131: a setpoint that leaves raises the deepest setpoint of a setting cycle. -/
def Work.sentAt (p : Int) : Work → Work
  | .drill w => .drill w
  | .set w => .set { w with deepest := max w.deepest p }

/-- R106, R131: an outbound pass carried the pending setpoint. -/
def Cycle.carried (c : Cycle) : Cycle :=
  { c with sent := some c.p, frames := satAdd16 c.frames 1, work := c.work.sentAt c.p }

/-- R107, R106: an outbound pass begins: no setpoint of this frame has been sent yet, and the cycle may send its own. -/
def Cycle.passBegins (c : Cycle) : Cycle := { c with sent := none, begun := true, stopped := false }

end Sys2Proof.Machine
end

