-- ==== Sys2Proof/Machine/Ops.lean ====
section
/-!
DEFINITION. The named operations over the station: tables, heads, claims (R73), hole outcomes (R37 to R41), the result queue's
joining (R155, R158), the end of a cycle (R78), a head going to FAULT (R63), the halt (R64, R152) and a lost frame (R11).
-/
namespace Sys2Proof.Machine

/-! ## Tables -/

/-- The entry of a key; none where it is absent. -/
def Table.find {α : Type} (t : Table α) (k : Nat) : Option α :=
  match t with
  | [] => none
  | (j, a) :: rest => if j = k then some a else Table.find rest k

/-- The table with an entry at a key, in its place in the order. -/
def Table.put {α : Type} (t : Table α) (k : Nat) (v : α) : Table α :=
  match t with
  | [] => [(k, v)]
  | (j, a) :: rest =>
    if k < j then (k, v) :: (j, a) :: rest
    else if k = j then (k, v) :: rest
    else (j, a) :: Table.put rest k v

/-- The table without the entry of a key. -/
def Table.remove {α : Type} (t : Table α) (k : Nat) : Table α :=
  match t with
  | [] => []
  | (j, a) :: rest => if j = k then rest else (j, a) :: Table.remove rest k

/-- The canonical form: keys strictly rising. -/
def Table.wf {α : Type} : Table α → Bool
  | [] => true
  | [_] => true
  | (j, _) :: (k, b) :: rest => decide (j < k) && Table.wf ((k, b) :: rest)

/-! ## Four of a kind -/

def Four.get {α : Type} (f : Four α) : Fin 4 → α
  | 0 => f.n0
  | 1 => f.n1
  | 2 => f.n2
  | 3 => f.n3

def Four.set {α : Type} (f : Four α) (i : Fin 4) (a : α) : Four α :=
  match i with
  | 0 => { f with n0 := a }
  | 1 => { f with n1 := a }
  | 2 => { f with n2 := a }
  | 3 => { f with n3 := a }

def Four.map {α β : Type} (g : α → β) (f : Four α) : Four β :=
  { n0 := g f.n0, n1 := g f.n1, n2 := g f.n2, n3 := g f.n3 }

/-- All four, in ascending order. -/
def Four.all {α : Type} (p : α → Bool) (f : Four α) : Bool := p f.n0 && p f.n1 && p f.n2 && p f.n3

/-- The numbers 0 to 3 in ascending order. -/
def allFour : List (Fin 4) := [0, 1, 2, 3]

/-! ## Heads and holes -/

def Station.head (s : Station) (h : HeadNo) : Head := s.heads.get h

def Station.setHead (h : HeadNo) (v : Head) (s : Station) : Station := { s with heads := s.heads.set h v }

def Station.modHead (h : HeadNo) (f : Head → Head) (s : Station) : Station := s.setHead h (f (s.head h))

/-- One event reaches the heads in ascending number (R155). -/
def Station.eachHead (f : HeadNo → Station → Station) (s : Station) : Station := f 3 (f 2 (f 1 (f 0 s)))

def Station.hole (s : Station) (i : Nat) : Option Hole := Table.find s.table.holes i

def Station.putHole (i : Nat) (v : Hole) (s : Station) : Station :=
  { s with table := { s.table with holes := Table.put s.table.holes i v } }

/-- A present record is changed; an absent one stays absent. -/
def Station.modHole (i : Nat) (f : Hole → Hole) (s : Station) : Station :=
  match s.hole i with
  | none => s
  | some v => s.putHole i (f v)

/-- R63: a head in service: neither OFFLINE nor in FAULT. -/
def HeadState.inService : HeadState → Bool
  | .offline | .fault => false
  | .idle | .seeking | .settling | .armed | .engaged | .frozen | .retracting | .halted => true

/-- R78: a cycle is in flight. -/
def HeadState.inCycle : HeadState → Bool
  | .engaged | .frozen | .retracting => true
  | .offline | .idle | .seeking | .settling | .armed | .halted | .fault => false

/-- R64: a head that would become IDLE or SEEKING while the halt is present goes to HALTED in the same event. -/
def Station.rest (s : Station) (st : HeadState) : HeadState := if s.ring.halt then .halted else st

/-- The state a head takes by its queue: SEEKING, or IDLE when the queue is empty (R65, R78). -/
def byQueue (queue : List Nat) : HeadState := if queue = [] then .idle else .seeking

/-- R65: a SEEKING head whose queue is empty goes to IDLE. -/
def Station.idleIfEmpty (h : HeadNo) (s : Station) : Station :=
  let v := s.head h
  if v.state = .seeking ∧ v.queue = [] then s.setHead h { v with state := s.rest .idle } else s

/-! ## Claims -/

/-- R73, R35: a claim is released: the hole's claimant is cleared and the claim record emptied. -/
def Station.releaseClaim (h : HeadNo) (s : Station) : Station :=
  match (s.head h).claim with
  | none => s
  | some c => (s.modHole c.hole fun v => { v with claimant := none }).modHead h fun v => { v with claim := none }

/-- R28, R94: whether some head holds a claim that meets a condition. -/
def Station.someClaim (p : Claim → Bool) (s : Station) : Bool :=
  !(s.heads.all fun v => match v.claim with
    | some c => !p c
    | none => true)

/-! ## Hole records -/

/-- R34: whether a record's state is terminal. -/
def Hole.terminal (v : Hole) : Bool :=
  match v.state with
  | .set | .rejected | .skipped => true
  | .drilled | .suspect => v.set.isNone
  | .pending | .drilling | .setting => false

/-- R39: an outcome of the retryable kind: one more attempt, and back to a state, or REJECTED at the third. -/
def Hole.retry (back : HoleState) (v : Hole) : Hole :=
  if 3 ≤ v.attempts + 1 then { v with attempts := 3, state := .rejected }
  else { v with attempts := v.attempts + 1, state := back }

/-- R38: the state a setting cycle goes back to. -/
def Hole.entryState (v : Hole) : HoleState :=
  match v.entry with
  | some .suspect => .suspect
  | some .drilled | none => .drilled

/-- R37, R40: the outcome of a drilling cycle. NOT_DONE is no cycle outcome and changes nothing. -/
def Hole.drillOutcome (o : CycleOutcome) (m : Option Measured) (v : Hole) : Hole :=
  match o with
  | .good => { v with state := .drilled, measured := m }
  | .suspect => { v with state := .suspect, measured := m }
  | .aborted | .interrupted | .cancelled => v.retry .pending
  | .failed => { v with state := .rejected }
  | .notDone => v

/-- R38: the outcome of a setting cycle. SUSPECT and NOT_DONE are no outcomes of one and change nothing. -/
def Hole.setOutcome (o : CycleOutcome) (afterContact : Bool) (v : Hole) : Hole :=
  match o with
  | .good => { v with state := .set }
  | .aborted => v.retry v.entryState
  | .interrupted | .cancelled => if afterContact then { v with state := .rejected } else v.retry v.entryState
  | .failed => { v with state := .rejected }
  | .suspect | .notDone => v

/-- R37, R38, R41: a cycle end on a record, the claimant cleared with it (R35). -/
def Hole.cycleEnd (c : Cycle) (o : CycleOutcome) (why : Reason) (v : Hole) : Hole :=
  let v := match c.work with
    | .drill _ => v.drillOutcome o c.measured
    | .set _ => v.setOutcome o c.afterContact
  { v with claimant := none, last := some (o, why) }

/-- R44: the completeness test. -/
def Station.completenessTest (s : Station) : Station :=
  if s.table.complete = false ∧ (s.table.holes.all fun e => e.2.terminal) = true then
    ({ s with table := { s.table with complete := true } } : Station).raise .jigComplete
  else s

/-- R44: the test at a change of a record's state, made while the jig is WORKING. -/
def Station.completenessIfWorking (s : Station) : Station :=
  if s.table.jig = .working then s.completenessTest else s

/-! ## The result queue -/

/-- R158: the hold test. -/
def Station.holdTest (s : Station) : Station :=
  if s.results.hold then
    if s.results.records.length ≤ s.results.lower then { s with results := { s.results with hold := false } } else s
  else if s.results.upper ≤ s.results.records.length then
    ({ s with results := { s.results with hold := true } } : Station).raise .resultHold
  else s

/-- R155: a record joins the tail of the queue, and the hold test is made. -/
def Station.join (r : Result) (s : Station) : Station :=
  ({ s with results := { s.results with records := s.results.records ++ [r] } } : Station).holdTest

/-- R39: the attempt number of a result. -/
def Station.attemptNumber (s : Station) (i : Nat) : Nat :=
  match s.hole i with
  | some v => v.attempts + 1
  | none => 1

/-- R155: the record of a cycle end. -/
def Station.cycleRecord (s : Station) (h : HeadNo) (c : Cycle) (o : CycleOutcome) (why : Reason) : Result :=
  { jigId := s.table.jigId, hole := c.hole, head := h, operation := c.operation, outcome := o, reason := why,
    attempt := s.attemptNumber c.hole, sequence := s.ring.passSeq, notes := (s.head h).bank.notes,
    latch := (s.head h).bank.latch, group := c.group }

/-- R155: the record of a stale discard. -/
def Station.discardRecord (s : Station) (h : HeadNo) (i : Nat) (why : Reason) : Result :=
  { jigId := s.table.jigId, hole := i, head := h, operation := .none, outcome := .notDone, reason := why,
    attempt := s.attemptNumber i, sequence := s.ring.passSeq, notes := 0, latch := none, group := .none }

/-! ## The end of a cycle, and FAULT -/

/-- R128, R142: the fault kind of an outcome. -/
def CycleOutcome.kinds : CycleOutcome → List FaultKind
  | .failed => [.cycleFailed]
  | .aborted | .interrupted | .cancelled => [.cycleAborted]
  | .good | .suspect | .notDone => []

/-- R78, R143: the head after a cycle end: claim record emptied, entry out of the queue, no cycle, an empty bank. -/
def Head.cycleEnded (c : Cycle) (v : Head) : Head :=
  { v with claim := none, queue := v.queue.erase c.hole, engine := none, bank := .initial }

/-- R78: what every cycle end does, a fault's too: the outcome to the hole, the claim released, one record queued, the entry out
of the queue, the outcome's fault kind raised, the completeness test. -/
def Station.concludeCycle (h : HeadNo) (c : Cycle) (o : CycleOutcome) (why : Reason) (s : Station) : Station :=
  let r := s.cycleRecord h c o why
  let s := (s.releaseClaim h).modHole c.hole (Hole.cycleEnd c o why)
  let s := (s.modHead h (Head.cycleEnded c)).join r
  (s.raiseAll o.kinds).completenessIfWorking

/-- R78: the next state of the head at a cycle end not caused by a fault. -/
def Station.afterCycle (s : Station) (o : CycleOutcome) (queue : List Nat) : HeadState :=
  if s.ring.halt = true ∨ o = .interrupted then .halted else byQueue queue

/-- R78, R87: a cycle ends with its retract confirmed home. (A cycle on its way home has an outcome, R127; log 15.) -/
def Station.finishCycle (h : HeadNo) (s : Station) : Station :=
  match (s.head h).engine with
  | none => s
  | some c =>
    match c.decision with
    | none => s
    | some (o, why) =>
      let s := s.concludeCycle h c o why
      s.modHead h fun v => { v with gate := v.gate.letGo, state := s.afterCycle o v.queue }

/-- R63: step 1: a cycle in flight ends FAILED with the cause as its reason. -/
def Station.failCycle (h : HeadNo) (cause : Reason) (s : Station) : Station :=
  match (s.head h).engine with
  | none => s
  | some c => s.concludeCycle h c .failed cause

/-- R63: a cause reaches a head; a head that is OFFLINE or in FAULT does not change. -/
def Station.toFault (h : HeadNo) (cause : Reason) (s : Station) : Station :=
  if (s.head h).state.inService then
    let s := (s.failCycle h cause).releaseClaim h
    let s := s.modHead h fun v => { v with settle := 0, gate := v.gate.fault, state := .fault, faultCause := some cause }
    s.raise .headFault
  else s

/-! ## The halt -/

/-- R64, R152: the halt reaches a head. -/
def Station.haltHead (h : HeadNo) (s : Station) : Station :=
  match (s.head h).state with
  | .idle | .seeking => s.modHead h fun v => { v with state := .halted }
  | .settling | .armed => (s.releaseClaim h).modHead h fun v => { v with settle := 0, state := .halted }
  | .engaged | .frozen =>
    s.modHead h fun v =>
      { v with
        state := .retracting
        engine := v.engine.map fun c => ({ c with decision := some (.interrupted, .halt) } : Cycle).rampedRetract }
  | .offline | .retracting | .halted | .fault => s

/-- R151: the halt condition goes from absent to present. -/
def Station.haltArrives (s : Station) : Station := (s.raise .halt).eachHead Station.haltHead

/-- R151: a header or pin event: the condition before and after it decides whether the halt arrives. -/
def Station.withHalt (f : Ring → Ring) (s : Station) : Station :=
  let after : Station := { s with ring := f s.ring }
  if s.ring.halt = false ∧ after.ring.halt = true then after.haltArrives else after

/-- R7: an outbound header's HALT flag. -/
def Station.headerHalt (b : Bool) (s : Station) : Station := s.withHalt fun r => { r with headerHalt := b }

/-- R151: the filtered STOP level. In reset and in a transparent part the level alone is taken (log 6). -/
def Station.stopLevel (b : Bool) (s : Station) : Station :=
  if s.ring.active then s.withHalt fun r => { r with stopPin := b } else { s with ring := { s.ring with stopPin := b } }

/-! ## Lost frames -/

/-- R11, R12: a frame is declared lost. -/
def Station.declareLost (s : Station) : Station :=
  let n := min (s.ring.losses + 1) 255
  let s : Station :=
    { s with
      ring := { s.ring with lostReturns := satInc s.ring.lostReturns, losses := n }
      mgmt := { s.mgmt with answer := none } }
  if s.ring.lossLimit ≤ n then (s.eachHead fun h s => s.toFault h .spurLoss).raise .spurLoss else s

/-! ## Resets -/

/-- R169: every block at the values of its chapter after a reset, with the STOP level looked at once (R151). -/
def Station.afterReset (ring : Ring) (answer : Option Reply) : Station :=
  let s : Station := { Station.initial ring.address ring.stopPin with ring := ring, mgmt := { answer, refused := 0 } }
  if ring.stopPin then s.raise .halt else s

/-- R2, R169: power-on reset. The frames that have left stay in the output lists (log 4). -/
def Station.powerOn (pins : BitVec 6) (stop : Bool) (s : Station) : Station :=
  .afterReset { Ring.initial pins stop with spurOut := s.ring.spurOut, lineOut := s.ring.lineOut } none

/-- R169: STATION RESET: the station address and the frame in flight are kept. -/
def Station.stationReset (s : Station) : Station :=
  .afterReset
    { Ring.initial s.ring.address s.ring.stopPin with
      inReset := s.ring.inReset, inFlight := s.ring.inFlight, passSeq := s.ring.passSeq, spurOut := s.ring.spurOut,
      lineOut := s.ring.lineOut } none

end Sys2Proof.Machine
end

