-- ==== Sys2Proof/Machine/Correction.lean ====
section
/-!
DEFINITION. The Correction Unit (chapter 3): corrected positions and the three correction requests.
-/
namespace Sys2Proof.Machine

/-- R50: the quotient of `n` by a positive `d`, to the nearest whole value, halves away from zero. -/
def roundQuotient (n d : Int) : Int := if 0 ≤ n then (2 * n + d) / (2 * d) else -((2 * -n + d) / (2 * d))

/-- R49: an offset along X and across the face. -/
structure Offset where
  dx : Int
  dt : Int
deriving DecidableEq, Repr

/-- R50: the correction within the segment from `a` to `b`. -/
def interpolate (a b : Point) (x : Int) : Offset :=
  { dx := a.dx + roundQuotient ((b.dx - a.dx) * (x - a.x)) (b.x - a.x)
    dt := a.dt + roundQuotient ((b.dt - a.dt) * (x - a.x)) (b.x - a.x) }

/-- R49: the correction at a nominal X that is not below the point `a`, the points after `a` in ascending order. -/
def correctionFrom (a : Point) (rest : List Point) (x : Int) : Offset :=
  match rest with
  | [] => { dx := a.dx, dt := a.dt }
  | b :: rest => if x < b.x then interpolate a b x else correctionFrom b rest x

/-- R49: the correction at a nominal X, from the active points. -/
def correctionAt (points : List Point) (x : Int) : Offset :=
  match points with
  | [] => { dx := 0, dt := 0 }
  | a :: rest => if x ≤ a.x then { dx := a.dx, dt := a.dt } else correctionFrom a rest x

/-- R50, R51: the corrected position of a hole, from the active table as it stands. -/
def Station.correctedPosition (s : Station) (v : Hole) : Spot :=
  { x := v.x + (correctionAt s.correction.active v.x).dx, t := v.t + (correctionAt s.correction.active v.x).dt }

/-- R46: CORRECTION POINT. -/
def correctionPoint (k : Byte) (x dx dt : Word) (s : Station) : Station × Reply :=
  if 15 < k.toNat then (s, .refused .badIndex)
  else if x.toInt < 0 ∨ 25000000 < x.toInt ∨ dx.toInt < -20000 ∨ 20000 < dx.toInt ∨ dt.toInt < -20000 ∨ 20000 < dt.toInt then
    (s, .refused .badValue)
  else
    ({ s with
       correction :=
         { s.correction with
           staging := Table.put s.correction.staging k.toNat { x := x.toInt, dx := dx.toInt, dt := dt.toInt } } },
     .done [])

/-- R47: the staging points 0 to m-1, none where one of them is unwritten. -/
def stagedPoints (staging : Table Point) (m : Nat) : Option (List Point) :=
  (List.range m).mapM fun k => Table.find staging k

/-- R47: nominal X strictly ascending. -/
def ascending : List Point → Bool
  | [] => true
  | [_] => true
  | a :: b :: rest => decide (a.x < b.x) && ascending (b :: rest)

/-- R47: CORRECTION COMMIT. -/
def correctionCommit (m : Byte) (s : Station) : Station × Reply :=
  if 16 < m.toNat then (s, .refused .badValue)
  else
    match stagedPoints s.correction.staging m.toNat with
    | none => (s, .refused .order)
    | some points =>
      if ascending points then ({ s with correction := { s.correction with active := points } }, .done [])
      else (s, .refused .order)

/-- R54: the fields of a point, 0 when it is not present. -/
def pointBytes (count : Nat) (p : Option Point) : List Byte :=
  match p with
  | some p => u8 count ++ [0x01] ++ um p.x ++ um p.dx ++ um p.dt
  | none => u8 count ++ [0x00] ++ um 0 ++ um 0 ++ um 0

/-- R54, R55: CORRECTION READ. -/
def correctionRead (which : Byte) (k : Half) (s : Station) : Station × Reply :=
  let count := s.correction.active.length
  match which.toNat with
  | 0 =>
    if 15 < k.toNat then (s, .refused .badIndex)
    else (s, .done (pointBytes count (Table.find s.correction.staging k.toNat)))
  | 1 =>
    if 15 < k.toNat then (s, .refused .badIndex) else (s, .done (pointBytes count (s.correction.active[k.toNat]?)))
  | 2 =>
    if 1023 < k.toNat then (s, .refused .badIndex)
    else
      match s.hole k.toNat with
      | none => (s, .refused .badIndex)
      | some v =>
        let o := correctionAt s.correction.active v.x
        let c := s.correctedPosition v
        (s, .done (u8 count ++ um o.dx ++ um o.dt ++ um c.x ++ um c.t))
  | _ => (s, .refused .badValue)

end Sys2Proof.Machine
end

