-- ==== Sys2Proof/Machine/Jig.lean ====
section
/-!
DEFINITION. Jig sessions and the hole table (chapter 2): the seven requests.
-/
namespace Sys2Proof.Machine

/-- Every head's assignment queue is emptied (R26, R28). -/
def Station.emptyQueues (s : Station) : Station := { s with heads := s.heads.map fun v => { v with queue := [] } }

/-- R65: an IDLE head with entries goes to SEEKING while the jig is WORKING and the halt is absent. -/
def Station.seekIfWork (h : HeadNo) (s : Station) : Station :=
  let v := s.head h
  if v.state = .idle ∧ v.queue ≠ [] ∧ s.table.jig = .working ∧ s.ring.halt = false then
    s.setHead h { v with state := .seeking }
  else s

/-- R26: JIG LOAD. -/
def jigLoad (id : Word) (s : Station) : Station × Reply :=
  if s.table.jig = .working then (s, .refused .state)
  else
    ({ s.emptyQueues with table := { jig := .loading, jigId := id, complete := false, holes := [], halfA := none } }, .done [])

/-- R27: JIG START. -/
def jigStart (s : Station) : Station × Reply :=
  if s.table.jig ≠ .loading ∨ s.table.holes = [] then (s, .refused .state)
  else
    let s : Station := { s with table := { s.table with jig := .working, halfA := none } }
    (s.completenessTest.eachHead Station.seekIfWork, .done [])

/-- R28: JIG RELEASE. -/
def jigRelease (s : Station) : Station × Reply :=
  if s.table.jig ≠ .working ∨ s.someClaim (fun _ => true) = true then (s, .refused .state)
  else
    let s : Station := { s.emptyQueues with table := { s.table with jig := .released } }
    (s.eachHead Station.idleIfEmpty, .done [])

/-- R31: HOLE WRITE A. -/
def holeWriteA (index : Half) (x t : Word) (face : Byte) (s : Station) : Station × Reply :=
  if s.table.jig ≠ .loading then (s, .refused .state)
  else if 1023 < index.toNat then (s, .refused .badIndex)
  else if x.toInt < 0 ∨ 25000000 < x.toInt ∨ t.toInt < 0 ∨ 3000000 < t.toInt then (s, .refused .badValue)
  else
    match Face.ofCode face with
    | none => (s, .refused .badValue)
    | some f =>
      ({ s with table := { s.table with halfA := some { index := index.toNat, x := x.toInt, t := t.toInt, face := f } } },
       .done [])

/-- R33: the record that a half A and a half B commit, with the runtime fields of R30. -/
def committedHole (a : HalfA) (drill set : Option Nat) (depth stroke : Int) : Hole :=
  { x := a.x, t := a.t, face := a.face, drill, set, depth, stroke
    state := if drill.isSome then .pending else .drilled
    claimant := none, attempts := 0, entry := none, measured := none, last := none }

/-- R33: the commit; queues that hold the index of a record already present lose that entry. -/
def Station.commitHole (i : Nat) (v : Hole) (s : Station) : Station :=
  let heads := if (s.hole i).isSome then s.heads.map fun w => { w with queue := w.queue.erase i } else s.heads
  { s with heads, table := { s.table with holes := Table.put s.table.holes i v, halfA := none } }

/-- R32, R33: HOLE WRITE B. -/
def holeWriteB (index : Half) (drill set : Byte) (depth stroke : Word) (s : Station) : Station × Reply :=
  if s.table.jig ≠ .loading then (s, .refused .state)
  else if 1023 < index.toNat then (s, .refused .badIndex)
  else
    match s.table.halfA with
    | none => (s, .refused .noHalfA)
    | some a =>
      if a.index ≠ index.toNat then (s, .refused .noHalfA)
      else
        match profileArg drill, profileArg set with
        | some d, some e =>
          if (d = none ∧ e = none) ∨ depth.toInt < 0 ∨ 250000 < depth.toInt ∨ stroke.toInt < 0 ∨ 80000 < stroke.toInt then
            (s, .refused .badValue)
          else (s.commitHole index.toNat (committedHole a d e depth.toInt stroke.toInt), .done [])
        | _, _ => (s, .refused .badValue)

/-- R42: HOLE SKIP. -/
def holeSkip (index : Half) (s : Station) : Station × Reply :=
  if s.table.jig ≠ .loading ∧ s.table.jig ≠ .working then (s, .refused .state)
  else if 1023 < index.toNat then (s, .refused .badIndex)
  else
    match s.hole index.toNat with
    | none => (s, .refused .badIndex)
    | some v =>
      if v.claimant ≠ none ∨ v.terminal = true then (s, .refused .state)
      else ((s.putHole index.toNat { v with state := .skipped }).completenessIfWorking, .done [])

/-- R43: the claimant, FFh for none. -/
def claimantByte : Option HeadNo → Byte
  | some h => BitVec.ofNat 8 h.val
  | none => 0xFF

/-- R43: the set entry state, FFh for none. -/
def entryByte : Option EntryState → Byte
  | some e => e.code
  | none => 0xFF

/-- R43: last outcome, last reason and its comparator number, FFh, FFh and 00h for none. -/
def lastBytes : Option (CycleOutcome × Reason) → List Byte
  | some (o, why) => [o.code, why.code, why.comparatorByte]
  | none => [0xFF, 0xFF, 0x00]

/-- R43: the answer data of a present record, 42 bytes. -/
def holeBytes (i : Nat) (v : Hole) : List Byte :=
  let m := v.measured.getD { contact := 0, breakthrough := 0, grip := 0 }
  u16 i ++ [0x01] ++ um v.x ++ um v.t ++ [v.face.code, profileByte v.drill, profileByte v.set] ++ um v.depth ++ um v.stroke
    ++ [v.state.code, claimantByte v.claimant] ++ u8 v.attempts ++ [entryByte v.entry, flagByte v.measured.isSome]
    ++ um m.contact ++ um m.breakthrough ++ um m.grip ++ lastBytes v.last

/-- R43: HOLE READ. -/
def holeRead (index : Half) (s : Station) : Station × Reply :=
  if 1023 < index.toNat then (s, .refused .badIndex)
  else
    match s.hole index.toNat with
    | none => (s, .done (padTo 42 (u16 index.toNat)))
    | some v => (s, .done (holeBytes index.toNat v))

end Sys2Proof.Machine
end

