-- ==== Sys2Proof/Machine/Profiles.lean ====
section
/-!
DEFINITION. The Profile Store (chapter 6): default values, groups, clamping, structural checks, and the six profile requests.
-/
namespace Sys2Proof.Machine

/-! ## Fields -/

/-- R95: the defaults of a drill profile. -/
def DrillFields.initial : DrillFields :=
  { spindleSpeed := 1500, spinUpLimit := 250, approachSpeed := 500, acceleration := 20, clearance := 2000, rampMargin := 0,
    retractSpeed := 1000, contactForce := 1000, contactCount := 2, contactWindow := 4000, exitSpeed := 40,
    exitWindow := 2000, breakthroughForce := 300, breakthroughCount := 2, lateLimit := 2000, overtravel := 2000,
    stackTolerance := 500, overloadForce := 20000, chipLoadTorque := 0, torqueCount := 3, maxPecks := 3,
    resumeBackoff := 1000 }

/-- R96: the defaults of a set profile. -/
def SetFields.initial : SetFields :=
  { feedLimit := 200, advanceSpeed := 400, acceleration := 20, clearance := 3000, squeezeSpeed := 60, retractSpeed := 1000,
    contactForce := 200, contactCount := 2, gripWindow := 1500, setForce := 8000, holdForce := 6000, dwell := 20,
    overloadForce := 20000, formedMin := 4000, formedMax := 6500, nominalGrip := 20000, acceptSuspect := false }

/-- R95: the fields of a group take the values sent, in the order and widths of the table. -/
def DrillFields.write (f : DrillFields) (group : Nat) (v : List Byte) : DrillFields :=
  match group with
  | 0 =>
    { f with
      spindleSpeed := natAt16 v 0, spinUpLimit := natAt16 v 2, approachSpeed := intAt v 4, acceleration := intAt v 8,
      clearance := intAt v 12, rampMargin := intAt v 16, retractSpeed := intAt v 20 }
  | 1 =>
    { f with
      contactForce := natAt16 v 0, contactCount := (byteAt v 2).toNat, contactWindow := intAt v 3, exitSpeed := intAt v 7,
      exitWindow := intAt v 11, breakthroughForce := natAt16 v 15, breakthroughCount := (byteAt v 17).toNat,
      lateLimit := intAt v 18, overtravel := intAt v 22, stackTolerance := intAt v 26, overloadForce := natAt16 v 30 }
  | _ =>
    { f with
      chipLoadTorque := natAt16 v 0, torqueCount := (byteAt v 2).toNat, maxPecks := (byteAt v 3).toNat,
      resumeBackoff := intAt v 4 }

/-- R96: the same for a set profile. -/
def SetFields.write (f : SetFields) (group : Nat) (v : List Byte) : SetFields :=
  match group with
  | 0 =>
    { f with
      feedLimit := natAt16 v 0, advanceSpeed := intAt v 2, acceleration := intAt v 6, clearance := intAt v 10,
      squeezeSpeed := intAt v 14, retractSpeed := intAt v 18 }
  | 1 =>
    { f with
      contactForce := natAt16 v 0, contactCount := (byteAt v 2).toNat, gripWindow := intAt v 3, setForce := natAt16 v 7,
      holdForce := natAt16 v 9, dwell := natAt16 v 11, overloadForce := natAt16 v 13 }
  | _ =>
    { f with
      formedMin := intAt v 0, formedMax := intAt v 4, nominalGrip := intAt v 8, acceptSuspect := byteAt v 12 == 1 }

/-- R95, R101: the values of a group as bytes. -/
def DrillFields.groupBytes (f : DrillFields) (group : Nat) : List Byte :=
  match group with
  | 0 =>
    u16 f.spindleSpeed ++ u16 f.spinUpLimit ++ um f.approachSpeed ++ um f.acceleration ++ um f.clearance ++ um f.rampMargin
      ++ um f.retractSpeed
  | 1 =>
    u16 f.contactForce ++ u8 f.contactCount ++ um f.contactWindow ++ um f.exitSpeed ++ um f.exitWindow
      ++ u16 f.breakthroughForce ++ u8 f.breakthroughCount ++ um f.lateLimit ++ um f.overtravel ++ um f.stackTolerance
      ++ u16 f.overloadForce
  | _ => u16 f.chipLoadTorque ++ u8 f.torqueCount ++ u8 f.maxPecks ++ um f.resumeBackoff

/-- R96, R101: the same for a set profile. -/
def SetFields.groupBytes (f : SetFields) (group : Nat) : List Byte :=
  match group with
  | 0 =>
    u16 f.feedLimit ++ um f.advanceSpeed ++ um f.acceleration ++ um f.clearance ++ um f.squeezeSpeed ++ um f.retractSpeed
  | 1 =>
    u16 f.contactForce ++ u8 f.contactCount ++ um f.gripWindow ++ u16 f.setForce ++ u16 f.holdForce ++ u16 f.dwell
      ++ u16 f.overloadForce
  | _ => um f.formedMin ++ um f.formedMax ++ um f.nominalGrip ++ [flagByte f.acceptSuspect]

/-- R95, R100: the ranges of a drill profile. -/
def DrillFields.clamp (f : DrillFields) : DrillFields :=
  { spindleSpeed := clampNat 100 6000 f.spindleSpeed
    spinUpLimit := clampNat 1 4000 f.spinUpLimit
    approachSpeed := clampInt 1 4000 f.approachSpeed
    acceleration := clampInt 1 200 f.acceleration
    clearance := clampInt 500 20000 f.clearance
    rampMargin := clampInt 0 10000 f.rampMargin
    retractSpeed := clampInt 1 4000 f.retractSpeed
    contactForce := clampNat 50 20000 f.contactForce
    contactCount := clampNat 1 4 f.contactCount
    contactWindow := clampInt 500 20000 f.contactWindow
    exitSpeed := clampInt 1 400 f.exitSpeed
    exitWindow := clampInt 500 20000 f.exitWindow
    breakthroughForce := clampNat 0 20000 f.breakthroughForce
    breakthroughCount := clampNat 1 8 f.breakthroughCount
    lateLimit := clampInt 0 20000 f.lateLimit
    overtravel := clampInt 0 10000 f.overtravel
    stackTolerance := clampInt 0 10000 f.stackTolerance
    overloadForce := clampNat 0 65535 f.overloadForce
    chipLoadTorque := clampNat 0 65535 f.chipLoadTorque
    torqueCount := clampNat 1 8 f.torqueCount
    maxPecks := clampNat 1 15 f.maxPecks
    resumeBackoff := clampInt 200 5000 f.resumeBackoff }

/-- R96, R100: the ranges of a set profile. -/
def SetFields.clamp (f : SetFields) : SetFields :=
  { feedLimit := clampNat 1 4000 f.feedLimit
    advanceSpeed := clampInt 1 4000 f.advanceSpeed
    acceleration := clampInt 1 200 f.acceleration
    clearance := clampInt 500 20000 f.clearance
    squeezeSpeed := clampInt 1 400 f.squeezeSpeed
    retractSpeed := clampInt 1 4000 f.retractSpeed
    contactForce := clampNat 10 5000 f.contactForce
    contactCount := clampNat 1 4 f.contactCount
    gripWindow := clampInt 200 10000 f.gripWindow
    setForce := clampNat 100 60000 f.setForce
    holdForce := clampNat 100 60000 f.holdForce
    dwell := clampNat 1 1000 f.dwell
    overloadForce := clampNat 0 65535 f.overloadForce
    formedMin := clampInt 500 30000 f.formedMin
    formedMax := clampInt 500 30000 f.formedMax
    nominalGrip := clampInt 1000 150000 f.nominalGrip
    acceptSuspect := f.acceptSuspect }

/-- R98, R100: the ranges of a layer. -/
def Layer.clamp (l : Layer) : Layer :=
  { thickness := clampInt 500 60000 l.thickness, feed := clampInt 1 400 l.feed }

/-- R99, R100: the range of a comparator's consecutive count. -/
def Comparator.clamp (k : Comparator) : Comparator := { k with count := clampNat 1 8 k.count }

/-- R100: the fields and layers of a profile, clamped. -/
def Body.clamp : Body → Body
  | .drill f layers => .drill f.clamp (layers.map fun e => (e.1, e.2.clamp))
  | .set f => .set f.clamp

/-- R93: what PROFILE BEGIN fills a profile with. -/
def Body.initial : HeadKind → Body
  | .drill => .drill .initial []
  | .set => .set .initial

def Body.kind : Body → HeadKind
  | .drill _ _ => .drill
  | .set _ => .set

/-- The layer list of a profile; a set profile has none (R96). -/
def Body.layers : Body → Table Layer
  | .drill _ layers => layers
  | .set _ => []

/-! ## Structural checks -/

/-- R100: slot 1 is written and no written slot stands above an empty one. -/
def gapless (layers : Table Layer) : Bool := layers.map Prod.fst == (List.range layers.length).map (· + 1)

/-- R100: a comparator whose limits are out of order. -/
def Comparator.limitsBad (k : Comparator) : Bool :=
  (k.condition == .inside || k.condition == .outside) && decide (k.high < k.low)

/-- R100: the checks of the profile's kind, in the order of the table; the first that fails. -/
def Body.unsound : Body → Option InvalidReason
  | .drill f layers =>
    match layers.getLast? with
    | none => some .noLayers
    | some (_, last) =>
      if gapless layers = false then some .layerGap
      else if last.thickness ≤ f.exitWindow then some .exitWindow
      else if f.contactForce ≤ f.breakthroughForce then some .breakthroughForce
      else if f.overloadForce ≤ f.contactForce then some .overload
      else none
  | .set f =>
    if f.overloadForce ≤ f.setForce then some .overload
    else if f.formedMax ≤ f.formedMin then some .formedStroke
    else if f.setForce < f.holdForce then some .holdForce
    else none

/-- R100: the first structural check that fails. -/
def structuralFailure (b : Body) (comparators : Table Comparator) : Option InvalidReason :=
  match b.unsound with
  | some why => some why
  | none => if comparators.any fun e => e.2.limitsBad then some .comparatorLimits else none

/-! ## Requests -/

/-- The profile numbered `p`, none when it is EMPTY. -/
def Station.profile (s : Station) (p : Nat) : Option Profile := Table.find s.profiles p

def Station.putProfile (p : Nat) (q : Profile) (s : Station) : Station := { s with profiles := Table.put s.profiles p q }

/-- R94: a profile is in use while a head holds a claim on a hole that names it. -/
def Station.profileInUse (s : Station) (p : Nat) : Bool :=
  s.someClaim fun c => match s.hole c.hole with
    | some v => v.drill == some p || v.set == some p
    | none => false

/-- R93: PROFILE BEGIN. -/
def profileBegin (p kind : Byte) (s : Station) : Station × Reply :=
  if 31 < p.toNat then (s, .refused .badIndex)
  else
    match HeadKind.ofCode kind with
    | none => (s, .refused .badValue)
    | some k =>
      if s.profileInUse p.toNat then (s, .refused .inUse)
      else (s.putProfile p.toNat { state := .loading, body := .initial k, comparators := [], clamped := false }, .done [])

/-- R97: the BAD_VALUE check of PROFILE FIELDS. -/
def fieldsBad (b : Body) (group : Nat) (values : List Byte) : Bool :=
  decide (2 < group) || match b with
    | .drill _ _ => false
    | .set _ => decide (group = 2 ∧ 1 < (byteAt values 12).toNat)

/-- R97: a group of a profile's fields is replaced whole. -/
def Body.write (b : Body) (group : Nat) (values : List Byte) : Body :=
  match b with
  | .drill f layers => .drill (f.write group values) layers
  | .set f => .set (f.write group values)

/-- R97: PROFILE FIELDS. -/
def profileFields (p group : Byte) (values : List Byte) (s : Station) : Station × Reply :=
  if 31 < p.toNat then (s, .refused .badIndex)
  else
    match s.profile p.toNat with
    | none => (s, .refused .state)
    | some q =>
      if q.state ≠ .loading then (s, .refused .state)
      else if fieldsBad q.body group.toNat values then (s, .refused .badValue)
      else (s.putProfile p.toNat { q with body := q.body.write group.toNat values }, .done [])

/-- R98: PROFILE LAYER. -/
def profileLayer (p i : Byte) (thickness feed : Word) (s : Station) : Station × Reply :=
  if 31 < p.toNat ∨ i.toNat < 1 ∨ 6 < i.toNat then (s, .refused .badIndex)
  else
    match s.profile p.toNat with
    | none => (s, .refused .state)
    | some q =>
      if q.state ≠ .loading then (s, .refused .state)
      else
        match q.body with
        | .set _ => (s, .refused .operation)
        | .drill f layers =>
          let layers :=
            if thickness = 0 then Table.remove layers i.toNat
            else Table.put layers i.toNat { thickness := thickness.toInt, feed := feed.toInt }
          (s.putProfile p.toNat { q with body := .drill f layers }, .done [])

/-- R99: PROFILE COMPARATOR. -/
def profileComparator (p k source condition : Byte) (low high : Word) (mask : Half) (count action : Byte) (s : Station) :
    Station × Reply :=
  if 31 < p.toNat ∨ 5 < k.toNat then (s, .refused .badIndex)
  else
    match s.profile p.toNat with
    | none => (s, .refused .state)
    | some q =>
      if q.state ≠ .loading then (s, .refused .state)
      else if source = 0 then
        (s.putProfile p.toNat { q with comparators := Table.remove q.comparators k.toNat }, .done [])
      else
        match Source.ofCode source, Condition.ofCode condition, Action.ofCode action with
        | some src, some cond, some act =>
          (s.putProfile p.toNat
            { q with
              comparators := Table.put q.comparators k.toNat
                { source := src, condition := cond, low := low.toInt, high := high.toInt, mask, count := count.toNat,
                  action := act } },
           .done [])
        | _, _, _ => (s, .refused .badValue)

/-- R100: a profile as PROFILE END leaves it: clamped, checked, closed. -/
def Profile.close (q : Profile) : Profile :=
  let body := q.body.clamp
  let comparators := q.comparators.map fun e => (e.1, e.2.clamp)
  { state := match structuralFailure body comparators with
      | none => .valid
      | some why => .invalid why
    body
    comparators
    clamped := q.clamped || decide (body ≠ q.body) || decide (comparators ≠ q.comparators) }

/-- R100: PROFILE END. -/
def profileEnd (p : Byte) (s : Station) : Station × Reply :=
  if 31 < p.toNat then (s, .refused .badIndex)
  else
    match s.profile p.toNat with
    | none => (s, .refused .state)
    | some q =>
      if q.state ≠ .loading then (s, .refused .state)
      else
        let q := q.close
        let s := s.putProfile p.toNat q
        let s := if q.state = .valid then s else s.raise .profileInvalid
        let data := [profileStateCode (some q), invalidReasonCode (some q)]
        (s, if q.clamped then .clamped data else .done data)

/-- R101: the summary of a profile, 7 bytes. -/
def profileSummary (p : Nat) (q : Option Profile) : List Byte :=
  let slots (keys : List Nat) : Byte := keys.foldl (fun (m : Byte) k => m ||| BitVec.ofNat 8 (2 ^ k)) 0
  u8 p ++ [profileStateCode q]
    ++ (match q with
      | none => [0xFF, 0x00, 0x00, 0x00, 0x00]
      | some v =>
        [v.body.kind.code, flagByte v.clamped, invalidReasonCode q, slots (v.body.layers.map fun e => e.1 - 1),
          slots (v.comparators.map Prod.fst)])

/-- R101: a layer slot, 0 and 0 when empty. -/
def layerBytes (q : Option Profile) (i : Nat) : List Byte :=
  match q with
  | none => um 0 ++ um 0
  | some v => match Table.find v.body.layers i with
    | some l => um l.thickness ++ um l.feed
    | none => um 0 ++ um 0

/-- R101: a comparator slot, all 00h when empty. -/
def comparatorBytes (q : Option Profile) (k : Nat) : List Byte :=
  match q with
  | none => List.replicate 14 0
  | some v => match Table.find v.comparators k with
    | none => List.replicate 14 0
    | some c => [c.source.code, c.condition.code] ++ um c.low ++ um c.high ++ bytes16 c.mask ++ u8 c.count ++ [c.action.code]

/-- R101: the values of a field group; an EMPTY profile has none to report. -/
def fieldGroupBytes (q : Option Profile) (group : Nat) : List Byte :=
  match q with
  | none => []
  | some v => match v.body with
    | .drill f _ => f.groupBytes group
    | .set f => f.groupBytes group

/-- R101: the data that *part* selects; none for a code outside the list. -/
def profilePart (q : Option Profile) (part : Nat) : Option (List Byte) :=
  if part = 0x00 then some []
  else if 0x01 ≤ part ∧ part ≤ 0x03 then some (fieldGroupBytes q (part - 1))
  else if part = 0x10 then
    some (layerBytes q 1 ++ layerBytes q 2 ++ layerBytes q 3 ++ layerBytes q 4 ++ layerBytes q 5 ++ layerBytes q 6)
  else if 0x20 ≤ part ∧ part ≤ 0x25 then some (comparatorBytes q (part - 0x20))
  else none

/-- R101: PROFILE READ. -/
def profileRead (p part : Byte) (s : Station) : Station × Reply :=
  if 31 < p.toNat then (s, .refused .badIndex)
  else
    match profilePart (s.profile p.toNat) part.toNat with
    | none => (s, .refused .badValue)
    | some data => (s, .done (profileSummary p.toNat (s.profile p.toNat) ++ data))

end Sys2Proof.Machine
end

