-- ==== Sys2Proof/Machine/Heads.lean ====
section
/-!
DEFINITION. What a head does on its returns (chapter 4): queue evaluation (R69 to R72), the Claim Arbiter (R73), settling,
arming and engagement (R75 to R77), and the CARRIAGE and TOOL returns of R15 and R22.
-/
namespace Sys2Proof.Machine

/-! ## Queue evaluation -/

/-- R70: the profile number a head's kind needs of a hole. -/
def HeadKind.needed (k : HeadKind) (v : Hole) : Option Nat :=
  match k with
  | .drill => v.drill
  | .set => v.set

/-- R70: the needed profile as it stands, none when it is EMPTY. -/
def Station.neededProfile (s : Station) (k : HeadKind) (v : Hole) : Option Profile := (k.needed v).bind s.profile

/-- R70: the hole state a head of this kind works from. -/
def HeadKind.worksFrom (k : HeadKind) (st : HoleState) : Bool :=
  match k with
  | .drill => st == .pending
  | .set => st == .drilled || st == .suspect

/-- R70: the drill limits are met when the surface depth is below C or the deepest setpoint would pass 250,000. -/
def drillLimitBroken (f : DrillFields) (layers : Table Layer) (surface : Int) : Bool :=
  decide (surface < f.clearance ∨ 250000 < surface + f.contactWindow + (layers.map fun e => e.2.thickness).sum + f.lateLimit
    + f.overtravel)

/-- R70: the set limits are met when the advance boundary is below 0 or the stroke limit passes 80,000. -/
def setLimitBroken (f : SetFields) (stroke : Int) : Bool :=
  decide (stroke - f.gripWindow - f.clearance < 0 ∨ 80000 < stroke + f.gripWindow + f.formedMax + 2000)

/-- How the stale tests end: a discard, a wait on a LOADING profile (R71), or passed. -/
inductive Look where
  | discard (why : Reason)
  | wait
  | passed
deriving DecidableEq, Repr

/-- R70, R102: the tests that read a VALID profile's values. -/
def validTests (k : HeadKind) (v : Hole) (b : Body) : Look :=
  match k, b with
  | .drill, .drill f layers => if drillLimitBroken f layers v.depth then .discard .limit else .passed
  | .set, .set f =>
    if v.state = .suspect ∧ f.acceptSuspect = false then .discard .state
    else if setLimitBroken f v.stroke then .discard .limit
    else .passed
  | .drill, .set _ | .set, .drill _ _ => .discard .profile

/-- R70: the stale tests, in the order of the table. -/
def staleTests (k : HeadKind) (v : Hole) (q : Option Profile) : Look :=
  if k.worksFrom v.state = false then .discard .state
  else
    match q with
    | none => .discard .profile
    | some q =>
      match q.state with
      | .invalid _ => .discard .profile
      | .loading => .wait
      | .valid => validTests k v q.body

/-- R70: the queue head is discarded. -/
def Station.discard (h : HeadNo) (i : Nat) (why : Reason) (s : Station) : Station :=
  let r := s.discardRecord h i why
  let s := s.modHead h fun w => { w with queue := w.queue.tail }
  ((s.join r).raise .staleAssignment).idleIfEmpty h

/-- R56: the tool centre. -/
def HeadConfig.toolCentre (c : HeadConfig) (actual : Spot) : Spot :=
  { x := actual.x + c.offsetX, t := actual.t + c.offsetT }

/-- R72: the window test. -/
def inWindow (c : HeadConfig) (actual target : Spot) : Bool :=
  decide (magnitude ((c.toolCentre actual).x - target.x) ≤ c.window ∧ magnitude ((c.toolCentre actual).t - target.t) ≤ c.window)

/-! ## The Claim Arbiter -/

/-- R73: whether head `j` is another head of `h`'s group whose claim stands closer than the keep-out distance to `x`. -/
def Station.tooClose (s : Station) (h : HeadNo) (x : Int) (j : HeadNo) : Bool :=
  decide (j ≠ h) && decide ((s.head j).cfg.group = (s.head h).cfg.group) && match (s.head j).claim with
    | some c => decide (magnitude (c.claimX - x) < s.keepOut.get (s.head h).cfg.group)
    | none => false

/-- R73: the arbiter's answer to a request. -/
inductive ClaimAnswer where
  | halted | busy | keepOut | granted
deriving DecidableEq, Repr

/-- R73: the conditions in the order of the table. -/
def Station.arbitrate (s : Station) (h : HeadNo) (v : Hole) : ClaimAnswer :=
  if s.ring.halt then .halted
  else if v.claimant ≠ none then .busy
  else if allFour.any (s.tooClose h (s.correctedPosition v).x) then .keepOut
  else .granted

/-- R73, R72: a granted claim. -/
def Station.grant (h : HeadNo) (i : Nat) (v : Hole) (s : Station) : Station :=
  (s.putHole i { v with claimant := some h }).modHead h fun w =>
    { w with state := .settling, settle := 0, lastRefusal := .none,
             claim := some { hole := i, claimX := (s.correctedPosition v).x } }

/-- R73, R79: a request for a hole. -/
def Station.claimRequest (h : HeadNo) (i : Nat) (v : Hole) (s : Station) : Station :=
  match s.arbitrate h v with
  | .halted => s
  | .busy => s.modHead h fun w => { w with lastRefusal := .busy }
  | .keepOut => s.modHead h fun w => { w with lastRefusal := .keepOut }
  | .granted => s.grant h i v

/-- R70 to R72: the evaluation of a queue head whose record is present. -/
def Station.evaluateHole (h : HeadNo) (i : Nat) (v : Hole) (actual : Spot) (s : Station) : Station :=
  match staleTests (s.head h).cfg.kind v (s.neededProfile (s.head h).cfg.kind v) with
  | .discard why => s.discard h i why
  | .wait => s
  | .passed =>
    if (s.head h).gate.state ≠ .opened then s
    else if inWindow (s.head h).cfg actual (s.correctedPosition v) then s.claimRequest h i v
    else s

/-- R69: one evaluation of one entry, while the release hold is clear. (A queue entry always names a present record, R67,
R33; an absent one would be discarded as a hole in no state to work from, log 15.) -/
def Station.evaluate (h : HeadNo) (actual : Spot) (s : Station) : Station :=
  if s.results.hold then s
  else
    match (s.head h).queue with
    | [] => s
    | i :: _ =>
      match s.hole i with
      | none => s.discard h i .state
      | some v => s.evaluateHole h i v actual

/-! ## Settling, arming, engagement -/

/-- R36: the state of a hole at engagement. -/
def Hole.engage (k : HeadKind) (v : Hole) : Hole :=
  match k with
  | .drill => { v with state := .drilling }
  | .set => { v with state := .setting, entry := some (if v.state = .suspect then .suspect else .drilled) }

/-- R105, R130: the cycle that begins, for a profile of the head's kind. -/
def beginCycle (k : HeadKind) (i : Nat) (v : Hole) (b : Body) : Option Cycle :=
  match k, b with
  | .drill, .drill f layers => some (beginDrill i f layers v.depth)
  | .set, .set f => some (beginSet i f v.stroke v.measured)
  | .drill, .set _ | .set, .drill _ _ => none

/-- R103, R143: the bank at engagement: a copy of the written comparator slots, nothing latched, noted or eased. -/
def Bank.copy (comparators : Table Comparator) : Bank :=
  { Bank.initial with live := comparators.map fun e => { slot := e.1, record := e.2, count := 0, fired := false } }

/-- R77: engagement on a claimed hole. (The profile is VALID and of the head's kind from the claim on, R94; log 15.) -/
def Station.engageOn (h : HeadNo) (i : Nat) (v : Hole) (s : Station) : Station :=
  let k := (s.head h).cfg.kind
  match s.neededProfile k v with
  | none => s
  | some q =>
    match beginCycle k i v q.body with
    | none => s
    | some c =>
      (s.putHole i (v.engage k)).modHead h fun w =>
        { w with state := .engaged, gate := w.gate.engage, engine := some c, bank := .copy q.comparators }

/-- A step that concerns the hole a head has claimed; nothing where there is none (log 15). -/
def Station.onClaimed (h : HeadNo) (f : Nat → Hole → Station → Station) (s : Station) : Station :=
  match (s.head h).claim with
  | none => s
  | some c =>
    match s.hole c.hole with
    | none => s
    | some v => f c.hole v s

/-- R77: a head engages. -/
def Station.engage (h : HeadNo) (s : Station) : Station := s.onClaimed h (Station.engageOn h)

/-- R75, R76: the window is lost. -/
def Station.loseWindow (h : HeadNo) (s : Station) : Station :=
  let s := s.releaseClaim h
  s.modHead h fun w => { w with settle := 0, state := s.rest .seeking }

/-- R75: the settle test, with the deviation of this return; there is one in every settling head (log 15). -/
def settled (band : Int) (deviation : Option Spot) : Bool :=
  match deviation with
  | some d => decide (magnitude d.x ≤ band ∧ magnitude d.t ≤ band)
  | none => false

/-- R75: the settle counter rises; at the settle count the head engages or arms. -/
def Station.settleRise (h : HeadNo) (s : Station) : Station :=
  let n := (s.head h).settle + 1
  let s := s.modHead h fun w => { w with settle := n }
  if n < (s.head h).cfg.settleCount then s
  else
    match (s.head h).cfg.startMode with
    | .auto => s.engage h
    | .explicit => s.modHead h fun w => { w with state := .armed }

/-- R75: a SETTLING head's tests. -/
def Station.settleReturn (h : HeadNo) (actual : Spot) (_i : Nat) (v : Hole) (s : Station) : Station :=
  let w := s.head h
  if inWindow w.cfg actual (s.correctedPosition v) = false then s.loseWindow h
  else if settled w.cfg.settleBand w.gate.deviation = false then s.modHead h fun w => { w with settle := 0 }
  else s.settleRise h

/-- R76: an ARMED head's window test. -/
def Station.armedReturn (h : HeadNo) (actual : Spot) (_i : Nat) (v : Hole) (s : Station) : Station :=
  if inWindow (s.head h).cfg actual (s.correctedPosition v) = false then s.loseWindow h else s

/-! ## Returns -/

/-- R91, R113: a shift: an immediate stop decided on the CARRIAGE return, FAILED with reason SHIFT. -/
def Head.shift (w : Head) : Head :=
  { w with
    state := .retracting
    engine := w.engine.map fun c =>
      { ({ c with decision := some (.failed, .shift) } : Cycle).immediateStop with stopped := true } }

/-- R15: what the Head Controller does on a CARRIAGE return, after the gate. -/
def Station.controllerReturn (h : HeadNo) (actual : Spot) (s : Station) : Station :=
  match (s.head h).state with
  | .engaged | .frozen =>
    if (s.head h).gate.shifted (s.head h).cfg.shiftLimit actual then s.modHead h Head.shift else s
  | .seeking => s.evaluate h actual
  | .settling => s.onClaimed h (Station.settleReturn h actual)
  | .armed => s.onClaimed h (Station.armedReturn h actual)
  | .offline | .idle | .retracting | .halted | .fault => s

/-- R22: a drive status FAULT on a head in service. -/
def Station.driveReports (h : HeadNo) (st : DriveStatus) (s : Station) : Station :=
  if st = .fault ∧ (s.head h).state.inService = true then (s.raise .driveFault).toFault h .driveFault else s

/-- R15, R22: a CARRIAGE return: the drive status, the gate (log 20), then the Head Controller, a head in FAULT making no test. -/
def Station.carriageReturn (h : HeadNo) (payload : List Byte) (s : Station) : Station :=
  let s := s.modHead h fun w => { w with carriageStatus := carriageStatus payload }
  let s := s.driveReports h (carriageStatus payload)
  let s := s.modHead h fun w => { w with gate := w.gate.returned (carriageActual payload) }
  s.controllerReturn h (carriageActual payload)

/-- What a cycle return leaves goes back into the head, and its end is taken (R127, R63). -/
def Station.putRun (h : HeadNo) (r : Run) (s : Station) : Station :=
  let s := s.modHead h fun w => { w with engine := some r.cyc, state := r.state, bank := r.bank }
  let s := s.raiseAll r.raised
  match r.verdict with
  | .going => s
  | .home => s.finishCycle h
  | .lost => s.toFault h .toolNotHome

/-- R107: a TOOL return is a cycle return while a cycle is in flight whose setpoint this frame carried: that setpoint and the
cycle. -/
def Head.cycleReturning (w : Head) : Option (Cycle × Int) :=
  if w.state.inCycle then
    match w.engine with
    | none => none
    | some c => c.sent.map fun p => (c, p)
  else none

/-- R107, R131: the Cycle Engine and the Comparator Bank on a TOOL return. -/
def Station.engineReturn (h : HeadNo) (fb : Feedback) (s : Station) : Station :=
  let w := s.head h
  match w.cycleReturning with
  | none => s
  | some (c, p) => s.putRun h (cycleReturn fb p w.gate.holdDistance w.cfg.homeBand w.state w.bank c)

/-- R15, R22: a TOOL return. -/
def Station.toolReturn (h : HeadNo) (payload : List Byte) (s : Station) : Station :=
  let fb := toolFeedback payload
  let s := s.modHead h fun w => { w with toolStatus := fb.status }
  (s.driveReports h fb.status).engineReturn h fb

end Sys2Proof.Machine
end

