-- ==== Sys2Proof/Machine/HeadRequests.lean ====
section
/-!
DEFINITION. The requests to heads and to the Claim Arbiter (chapter 4, and RESUME and CANCEL of chapter 9).
-/
namespace Sys2Proof.Machine

/-- A request that names a head: refused BAD_INDEX above 3. -/
def onHead (h : Byte) (f : HeadNo → Station → Station × Reply) (s : Station) : Station × Reply :=
  match four? h with
  | none => (s, .refused .badIndex)
  | some h => f h s

/-! ## Configuration -/

/-- R57: the clamps of HEAD CONFIG. -/
def HeadConfig.clamped (kind : HeadKind) (face : Face) (group : Byte) (ox ot w band : Word) (count : Byte) (shift : Word)
    (mode : StartMode) (home : Word) : HeadConfig :=
  { kind, face
    group := if group.toNat < 3 then Fin.ofNat 4 group.toNat else 3
    offsetX := clampInt (-1000000) 1000000 ox.toInt
    offsetT := clampInt (-1000000) 1000000 ot.toInt
    window := clampInt 50 2000 w.toInt
    settleBand := clampInt 5 500 band.toInt
    settleCount := clampNat 1 16 count.toNat
    shiftLimit := clampInt 10 2000 shift.toInt
    startMode := mode
    homeBand := clampInt 50 2000 home.toInt }

/-- R57: whether the stored record differs from the values sent. -/
def HeadConfig.moved (c : HeadConfig) (group : Byte) (ox ot w band : Word) (count : Byte) (shift home : Word) : Bool :=
  decide (c.group.val ≠ group.toNat ∨ c.offsetX ≠ ox.toInt ∨ c.offsetT ≠ ot.toInt ∨ c.window ≠ w.toInt
    ∨ c.settleBand ≠ band.toInt ∨ c.settleCount ≠ count.toNat ∨ c.shiftLimit ≠ shift.toInt ∨ c.homeBand ≠ home.toInt)

/-- R57: HEAD CONFIG. -/
def headConfig (h kind face group : Byte) (ox ot w band : Word) (count : Byte) (shift : Word) (mode : Byte) (home : Word) :
    Station → Station × Reply :=
  onHead h fun h s =>
    if (s.head h).state ≠ .offline then (s, .refused .state)
    else
      match HeadKind.ofCode kind, Face.ofCode face, StartMode.ofCode mode with
      | some k, some f, some m =>
        let c := HeadConfig.clamped k f group ox ot w band count shift m home
        (s.modHead h fun v => { v with cfg := c },
         if c.moved group ox ot w band count shift home then .clamped [] else .done [])
      | _, _, _ => (s, .refused .badValue)

/-- R58: the heads of a group that hold claims closer together than a distance. -/
def Station.pairTooClose (s : Station) (g : Fin 4) (d : Int) (i j : HeadNo) : Bool :=
  decide (i ≠ j) && decide ((s.head i).cfg.group = g) && decide ((s.head j).cfg.group = g) &&
    match (s.head i).claim, (s.head j).claim with
    | some a, some b => decide (magnitude (a.claimX - b.claimX) < d)
    | _, _ => false

/-- R58: GROUP CONFIG. -/
def groupConfig (g : Byte) (d : Word) : Station → Station × Reply :=
  onHead g fun g s =>
    let v := clampInt 0 3000000 d.toInt
    if allFour.any fun i => allFour.any fun j => s.pairTooClose g v i j then (s, .refused .inUse)
    else ({ s with keepOut := s.keepOut.set g v }, if v ≠ d.toInt then .clamped [] else .done [])

/-! ## In and out of service -/

/-- R60: whether the section map holds an entry of a role. -/
def Station.mapHas (s : Station) (r : Role) : Bool := s.ring.map.any fun e => e.2.role == r

/-- R60: HEAD ENABLE. -/
def headEnable (h : Byte) : Station → Station × Reply :=
  onHead h fun h s =>
    if (s.head h).state ≠ .offline then (s, .refused .state)
    else if s.mapHas (.carriage h) = false ∨ s.mapHas (.tool h) = false then (s, .refused .map)
    else (s.modHead h fun v => { v with state := s.rest .idle }, .done [])

/-- R61, R62: a head goes to OFFLINE with an empty queue, its gate moved. -/
def Head.retire (g : Gate → Gate) (v : Head) : Head :=
  { v with queue := [], settle := 0, faultCause := none, gate := g v.gate, state := .offline }

/-- R61: HEAD DISABLE. -/
def headDisable (h : Byte) : Station → Station × Reply :=
  onHead h fun h s =>
    if (s.head h).state.inCycle then (s, .refused .state)
    else if (s.head h).state = .offline then (s, .done [])
    else ((s.releaseClaim h).modHead h (Head.retire Gate.letGo), .done [])

/-- R62: HEAD CLEAR. -/
def headClear (h : Byte) : Station → Station × Reply :=
  onHead h fun h s =>
    if (s.head h).state ≠ .fault ∧ (s.head h).state ≠ .halted then (s, .refused .state)
    else (s.modHead h (Head.retire Gate.clear), .done [])

/-! ## The queue -/

/-- R67: the checks of ASSIGN for a present record, from FULL on. -/
def assignDenial (w : Head) (i : Nat) (v : Hole) : Option Denial :=
  if 8 ≤ w.queue.length then some .full
  else if i ∈ w.queue then some .duplicate
  else if v.face ≠ w.cfg.face then some .face
  else if w.cfg.kind.needed v = none then some .operation
  else none

/-- R67: ASSIGN of a hole to a head that the request names. -/
def assignTo (i : Nat) (h : HeadNo) (s : Station) : Station × Reply :=
  if 1023 < i then (s, .refused .badIndex)
  else if (s.head h).state = .offline ∨ (s.head h).state = .fault ∨ (s.table.jig ≠ .loading ∧ s.table.jig ≠ .working) then
    (s, .refused .state)
  else
    match s.hole i with
    | none => (s, .refused .badIndex)
    | some v =>
      match assignDenial (s.head h) i v with
      | some why => (s, .refused why)
      | none => ((s.modHead h fun w => { w with queue := w.queue ++ [i] }).seekIfWork h, .done [])

/-- R67: ASSIGN. -/
def assign (h : Byte) (i : Half) : Station → Station × Reply := onHead h (assignTo i.toNat)

/-- R68: the entries that WITHDRAW leaves. -/
def Head.kept (w : Head) : List Nat :=
  match w.claim with
  | some c => w.queue.filter fun i => i == c.hole
  | none => []

/-- R68: WITHDRAW. -/
def withdraw (h : Byte) : Station → Station × Reply :=
  onHead h fun h s =>
    ((s.modHead h fun w => { w with queue := w.kept }).idleIfEmpty h,
     .done (u8 ((s.head h).queue.length - (s.head h).kept.length)))

/-! ## START, RESUME, CANCEL -/

/-- R76: a head that START names and that waits in ARMED. -/
def Station.startable (set : Byte) (s : Station) (h : HeadNo) : Bool :=
  set.getLsbD h.val && (s.head h).state == .armed

/-- R76: the set of heads started. -/
def Station.startSet (set : Byte) (s : Station) : Byte :=
  (allFour.filter (s.startable set)).foldl (fun (m : Byte) h => m ||| BitVec.ofNat 8 (2 ^ h.val)) 0

/-- R76: START. -/
def start (set : Byte) (s : Station) : Station × Reply :=
  if allFour.any (s.startable set) then
    (s.eachHead fun h t => if s.startable set h then t.engage h else t, .done [s.startSet set])
  else (s, .refused .state)

/-- R148: a frozen cycle goes on. -/
def Cycle.thaw (c : Cycle) : Cycle := { c with phase := .run, work := c.work.zeroCounts }

/-- R64, R148: RESUME. -/
def resume (h : Byte) : Station → Station × Reply :=
  onHead h fun h s =>
    if s.ring.halt then (s, .refused .state)
    else
      match (s.head h).state with
      | .halted =>
        (s.modHead h fun w => { w with state := if w.queue ≠ [] ∧ s.table.jig = .working then .seeking else .idle }, .done [])
      | .frozen => (s.modHead h fun w => { w with state := .engaged, engine := w.engine.map Cycle.thaw }, .done [])
      | .offline | .idle | .seeking | .settling | .armed | .engaged | .retracting | .fault => (s, .refused .state)

/-- R149: a frozen cycle is given up. -/
def Cycle.cancel (c : Cycle) : Cycle := ({ c with decision := some (.cancelled, .none) } : Cycle).rampedRetract

/-- R149: CANCEL. -/
def cancel (h : Byte) : Station → Station × Reply :=
  onHead h fun h s =>
    if (s.head h).state ≠ .frozen then (s, .refused .state)
    else (s.modHead h fun w => { w with state := .retracting, engine := w.engine.map Cycle.cancel }, .done [])

/-! ## Reading a head -/

/-- R79: eight hole indices oldest first, FFFFh past the length. -/
def queueBytes (queue : List Nat) : List Byte :=
  ((queue.map fun i => BitVec.ofNat 16 i) ++ List.replicate (8 - queue.length) (0xFFFF : Half)).flatMap bytes16

/-- R79, R24: the claimed hole, FFFFh for none. -/
def claimedHole (c : Option Claim) : List Byte :=
  match c with
  | some c => u16 c.hole
  | none => bytes16 0xFFFF

/-- R79: the claim X, 0 with no claim. -/
def claimXBytes (c : Option Claim) : List Byte :=
  match c with
  | some c => um c.claimX
  | none => um 0

/-- R79: the fault cause, 00h for none. -/
def causeByte (c : Option Reason) : Byte :=
  match c with
  | some r => r.code
  | none => 0x00

/-- R79: the data of HEAD READ, the 59 bytes of its table. R104 says that HEAD READ reports the cycle stage too, and no rule gives
it a place among those bytes: the table is followed and the stage left out (DESIGN CHOICE, log 28); STATUS reports it. -/
def headBytes (h : HeadNo) (w : Head) : List Byte :=
  u8 h.val ++ [w.state.code, w.cfg.kind.code, w.cfg.face.code] ++ u8 w.cfg.group.val ++ [w.cfg.startMode.code, causeByte w.faultCause]
    ++ claimedHole w.claim ++ claimXBytes w.claim ++ [w.lastRefusal.code] ++ u8 w.settle ++ u8 w.queue.length
    ++ queueBytes w.queue ++ [w.carriageStatus.code, w.toolStatus.code] ++ um w.cfg.offsetX ++ um w.cfg.offsetT
    ++ um w.cfg.window ++ um w.cfg.settleBand ++ u8 w.cfg.settleCount ++ um w.cfg.shiftLimit ++ um w.cfg.homeBand

/-- R79: HEAD READ. -/
def headRead (h : Byte) : Station → Station × Reply := onHead h fun h s => (s, .done (headBytes h (s.head h)))

end Sys2Proof.Machine
end

