-- ==== Sys2Proof/Machine/Results.lean ====
section
/-!
DEFINITION. The Result Queue's slots and requests (chapter 10).
-/
namespace Sys2Proof.Machine

/-- R156: a slot on a return: the payload that leaves and the station. -/
def Station.drain (payload : List Byte) (s : Station) : Station × List Byte :=
  if byteAt payload 0 ≠ 0 then (s, payload)
  else
    match s.results.records with
    | [] => (s, payload)
    | r :: rest => (({ s with results := { s.results with records := rest } } : Station).holdTest, flagByte true :: r.bytes)

/-- R160: RESULT READ. -/
def resultRead (k : Byte) (s : Station) : Station × Reply :=
  match s.results.records[k.toNat]? with
  | none => (s, .refused .badIndex)
  | some r => (s, .done (u8 s.results.records.length ++ [flagByte s.results.hold] ++ r.bytes))

/-- R161: RESULT FLUSH. -/
def resultFlush (s : Station) : Station × Reply :=
  (({ s with results := { s.results with records := [] } } : Station).holdTest, .done (u8 s.results.records.length))

end Sys2Proof.Machine
end

