-- ==== Sys2Proof/Machine/Management.lean ====
section
/-!
DEFINITION. The Management Agent (R162): the section map's requests (R19, R20), station configuration, faults, attention,
counters and reset (chapter 11), and a request being taken.
-/
namespace Sys2Proof.Machine

/-! ## The section map -/

/-- R19, R20: all four heads are OFFLINE. -/
def Station.allOffline (s : Station) : Bool := s.heads.all fun v => v.state == .offline

/-- R19: the role an entry is to hold; none for BAD_VALUE. -/
def roleOf (role : RoleCode) (head : Byte) : Option Role :=
  match role, four? head with
  | .carriage, some h => some (.carriage h)
  | .tool, some h => some (.tool h)
  | .status, _ => some .status
  | .resultSlot, _ => some .resultSlot
  | .carriage, none | .tool, none | .none, _ => none

/-- R18: how many entries may hold a role. -/
def Role.room : Role → Nat
  | .carriage _ | .tool _ | .status => 1
  | .resultSlot => 4

/-- R19: the checks from DUPLICATE on, against the other entries. -/
def mapDenial (others : Table MapEntry) (id : Nat) (role : Role) : Option Denial :=
  if others.any fun e => e.2.id == id then some .duplicate
  else if role.room ≤ (others.filter fun e => e.2.role == role).length then some .full
  else none

/-- R19: MAP WRITE with a role that uses an id. -/
def mapWriteEntry (e : Nat) (id head : Byte) (role : RoleCode) (s : Station) : Station × Reply :=
  match roleOf role head with
  | none => (s, .refused .badValue)
  | some r =>
    if id.toNat < 1 ∨ 191 < id.toNat then (s, .refused .badValue)
    else
      match mapDenial (Table.remove s.ring.map e) id.toNat r with
      | some why => (s, .refused why)
      | none => ({ s with ring := { s.ring with map := Table.put s.ring.map e { id := id.toNat, role := r } } }, .done [])

/-- R19: MAP WRITE. -/
def mapWrite (e id role head : Byte) (s : Station) : Station × Reply :=
  if s.allOffline = false then (s, .refused .state)
  else if 31 < e.toNat then (s, .refused .badIndex)
  else
    match RoleCode.ofCode role with
    | none => (s, .refused .badValue)
    | some .none => ({ s with ring := { s.ring with map := Table.remove s.ring.map e.toNat } }, .done [])
    | some r => mapWriteEntry e.toNat id head r s

/-- R20: MAP CLEAR. -/
def mapClear (s : Station) : Station × Reply :=
  if s.allOffline = false then (s, .refused .state) else ({ s with ring := { s.ring with map := [] } }, .done [])

/-! ## Station configuration, faults, attention, counters, reset -/

/-- R157, R163: STATION CONFIG. -/
def stationConfig (limit : Byte) (upper lower : Half) (s : Station) : Station × Reply :=
  let l := clampNat 1 7 limit.toNat
  let u := clampNat 8 60 upper.toNat
  let w := clampNat 0 (u - 8) lower.toNat
  let s : Station := { s with ring := { s.ring with lossLimit := l }, results := { s.results with upper := u, lower := w } }
  let data := u8 l ++ u16 u ++ u16 w
  (s.holdTest,
   if l ≠ limit.toNat ∨ u ≠ upper.toNat ∨ w ≠ lower.toNat then .clamped data else .done data)

/-- A set of fault kinds as two bytes, bit 15 written 0 (R166). -/
def setBytes (v : BitVec 15) : List Byte := bytes16 (v.setWidth 16)

/-- R166: FAULT READ. -/
def faultRead (s : Station) : Station × Reply :=
  (s, .done (setBytes s.faults.raw ++ setBytes s.faults.enable ++ setBytes s.faults.enabled
    ++ [flagByte s.faults.attention, flagByte s.faults.armed]))

/-- R166: FAULT CLEAR. -/
def faultClear (set : Half) (s : Station) : Station × Reply :=
  ({ s with faults := s.faults.clear (set.setWidth 15) }, .done [])

/-- R166: FAULT ENABLE. -/
def faultEnable (set : Half) (s : Station) : Station × Reply :=
  ({ s with faults := s.faults.replaceEnable (set.setWidth 15) }, .done [])

/-- R167: ATTENTION REARM. -/
def attentionRearm (s : Station) : Station × Reply := ({ s with faults := s.faults.rearm }, .done [])

/-- R168: COUNTER READ. -/
def counterRead (s : Station) : Station × Reply :=
  (s, .done (bytes32 s.ring.framesTaken ++ bytes32 s.ring.damagedFrames ++ bytes32 s.ring.lostReturns
    ++ bytes32 s.ring.staleReturns ++ bytes32 s.mgmt.refused))

/-- R169: STATION RESET; the answer DONE survives it. -/
def stationReset (s : Station) : Station × Reply := (s.stationReset, .done [])

/-! ## A request is taken -/

/-- R162: the answer of this frame is held, and a refusal counted. -/
def Station.holdAnswer (r : Reply) (s : Station) : Station :=
  { s with
    mgmt :=
      { answer := some r
        refused := match r with
          | .refused _ => satInc s.mgmt.refused
          | .done _ | .clamped _ => s.mgmt.refused } }

/-- R162: the owning block's effect and answer. -/
def Station.take (f : Station → Station × Reply) (s : Station) : Station := (f s).1.holdAnswer (f s).2

/-- R162: what a request that stands in a MGMT section does; none for a command that is no request. -/
def requestEffect : Instr → Option (Station → Station × Reply)
  | .jigLoad id => some (jigLoad id)
  | .jigStart => some jigStart
  | .jigRelease => some jigRelease
  | .holeWriteA index x t face => some (holeWriteA index x t face)
  | .holeWriteB index drill set depth stroke => some (holeWriteB index drill set depth stroke)
  | .holeSkip index => some (holeSkip index)
  | .holeRead index => some (holeRead index)
  | .correctionPoint k x dx dt => some (correctionPoint k x dx dt)
  | .correctionCommit m => some (correctionCommit m)
  | .correctionRead which k => some (correctionRead which k)
  | .profileBegin p kind => some (profileBegin p kind)
  | .profileFields p group values => some (profileFields p group values)
  | .profileLayer p i thickness feed => some (profileLayer p i thickness feed)
  | .profileComparator p k source condition low high mask count action =>
    some (profileComparator p k source condition low high mask count action)
  | .profileEnd p => some (profileEnd p)
  | .profileRead p part => some (profileRead p part)
  | .headConfig h kind face group ox ot w band count shift mode home =>
    some (headConfig h kind face group ox ot w band count shift mode home)
  | .headEnable h => some (headEnable h)
  | .headDisable h => some (headDisable h)
  | .headClear h => some (headClear h)
  | .assign h i => some (assign h i)
  | .withdraw h => some (withdraw h)
  | .start set => some (start set)
  | .resume h => some (resume h)
  | .cancel h => some (cancel h)
  | .headRead h => some (headRead h)
  | .mapWrite e id role head => some (mapWrite e id role head)
  | .mapClear => some mapClear
  | .groupConfig g d => some (groupConfig g d)
  | .stationConfig limit upper lower => some (stationConfig limit upper lower)
  | .resultRead k => some (resultRead k)
  | .resultFlush => some resultFlush
  | .faultRead => some faultRead
  | .faultClear set => some (faultClear set)
  | .faultEnable set => some (faultEnable set)
  | .attentionRearm => some attentionRearm
  | .counterRead => some counterRead
  | .stationReset => some stationReset
  | .powerOnReset _ _ | .resetPinAssert | .stopPinChange _ | .outboundPass _ _ | .returnPass _ _ => none
  | .spinUpLimit _ _ | .toolNotHome _ _ _ | .rivetFeedLimit _ _ | .dwellComplete _ _ => none

/-- R162: this station's MGMT section is taken on the outbound pass. -/
def Station.takeManagement (payload : List Byte) (s : Station) : Station :=
  match decodeRequest payload with
  | .empty => s
  | .unknown => s.holdAnswer (.refused .unknown)
  | .request i =>
    match requestEffect i with
    | some f => s.take f
    | none => s

end Sys2Proof.Machine
end

