-- ==== Sys2Proof/Machine/Ring.lean ====
section
/-!
DEFINITION. The two passes of a frame (chapter 1): what arrives, the header, the sections in frame order, and what leaves.
-/
namespace Sys2Proof.Machine

/-! ## What leaves -/

/-- R1: a frame leaves on SPUR OUT. -/
def Station.sendSpur (frame : List Byte) (s : Station) : Station :=
  { s with ring := { s.ring with spurOut := s.ring.spurOut ++ [frame] } }

/-- R1: a frame leaves on LINE OUT. -/
def Station.sendLine (frame : List Byte) (s : Station) : Station :=
  { s with ring := { s.ring with lineOut := s.ring.lineOut ++ [frame] } }

/-- R5: a damaged frame is counted, and FRAME_DAMAGED raised. -/
def Station.countDamaged (s : Station) : Station :=
  ({ s with ring := { s.ring with damagedFrames := satInc s.ring.damagedFrames } } : Station).raise .frameDamaged

/-! ## STOP edges inside a pass -/

/-- R151: STOP changes, taken one after the other as events of their own. -/
def Station.stopEdges (edges : List StopEdge) (s : Station) : Station :=
  edges.foldl (fun s e => s.stopLevel e.asserted) s

/-! ## Owners of sections -/

/-- R13: who owns a section. -/
inductive Owner where
  | management
  | role (r : Role)
deriving DecidableEq, Repr

/-- R13: the payload length of an owner's section. -/
def Owner.length : Owner → Nat
  | .management => mgmtLength
  | .role r => r.length

/-- R2: the id of this station's management section. -/
def Ring.managementId (r : Ring) : Nat := 192 + r.address.toNat

/-- R13, R18: the role of an id in the map. -/
def Ring.roleOfId (r : Ring) (id : Nat) : Option Role := (r.map.find? fun e => e.2.id == id).map fun e => e.2.role

/-- R13: the owner of a section id, by the map as it stands. -/
def Ring.owner (r : Ring) (id : Nat) : Option Owner :=
  if id = r.managementId then some .management else (r.roleOfId id).map .role

/-- R13: the owner that takes a section: the first occurrence of its id, with the length of its role. -/
def Ring.taker (r : Ring) (seen : List Nat) (x : Sect) : Option Owner :=
  if x.id ∈ seen then none
  else
    match r.owner x.id with
    | none => none
    | some o => if x.payload.length = o.length then some o else none

/-- A pass in progress. -/
structure Pass where
  station : Station
  /-- The STOP edges that have not fallen yet. -/
  edges : List StopEdge
  /-- The number of sections gone by. -/
  index : Nat
  /-- The ids gone by. -/
  seen : List Nat
  /-- The roles taken (R16). -/
  taken : List Role
  /-- The sections as they leave, in order. -/
  out : List Sect
deriving DecidableEq, Repr

/-- A pass begins, its header taken. -/
def Pass.begin (s : Station) (edges : List StopEdge) : Pass :=
  { station := s, edges, index := 0, seen := [], taken := [], out := [] }

/-- R151: the STOP edges that fall before the next section. -/
def Pass.fall (p : Pass) : Pass :=
  { p with
    station := p.station.stopEdges (p.edges.takeWhile fun e => e.before ≤ p.index)
    edges := p.edges.dropWhile fun e => e.before ≤ p.index }

/-- R13: one section: taken by its owner, or forwarded untouched. -/
def Pass.section (handle : Owner → List Byte → Station → Station × List Byte) (p : Pass) (x : Sect) : Pass :=
  let p := p.fall
  let gone := { p with index := p.index + 1, seen := x.id :: p.seen }
  match p.station.ring.taker p.seen x with
  | none => { gone with out := p.out ++ [x] }
  | some o =>
    let r := handle o x.payload p.station
    { gone with
      station := r.1
      taken := match o with
        | .management => p.taken
        | .role role => role :: p.taken
      out := p.out ++ [{ x with payload := r.2 }] }

/-- R13: the sections in the order in which they stand. -/
def Pass.sections (handle : Owner → List Byte → Station → Station × List Byte) (p : Pass) (xs : List Sect) : Pass :=
  xs.foldl (Pass.section handle) p

/-! ## The outbound pass -/

/-- R14, R81 to R84: a CARRIAGE section on the outbound pass. -/
def Station.carriageOutbound (h : HeadNo) (payload : List Byte) (s : Station) : Station × List Byte :=
  let o := (s.head h).gate.outbound (s.head h).cfg.settleBand (carriageSetpoint payload)
  (s.modHead h fun w => { w with gate := o.gate }, carriageOut payload o.setpoint o.gated)

/-- R106, R131: the four fields of a TOOL section while a cycle is in flight. -/
def Cycle.toolOut (c : Cycle) (payload : List Byte) : List Byte :=
  match c.work with
  | .drill w => Machine.toolOut payload 0x01 true c.p w.prof.spindleSpeed
  | .set _ => Machine.toolOut payload 0x02 false c.p 0

/-- R14, R106, R131: a TOOL section on the outbound pass. A cycle that began on this very pass sends nothing yet. -/
def Station.toolOutbound (h : HeadNo) (payload : List Byte) (s : Station) : Station × List Byte :=
  match (s.head h).engine with
  | none => (s, toolOut payload 0x00 false 0 0)
  | some c =>
    if c.begun then (s.modHead h fun w => { w with engine := some c.carried }, c.toolOut payload)
    else (s, toolOut payload 0x00 false 0 0)

/-- R14: what the owners do on the outbound pass. -/
def outboundSection (o : Owner) (payload : List Byte) (s : Station) : Station × List Byte :=
  match o with
  | .management => (s.takeManagement payload, payload)
  | .role (.carriage h) => s.carriageOutbound h payload
  | .role (.tool h) => s.toolOutbound h payload
  | .role .status | .role .resultSlot => (s, payload)

/-- R8: the frame-in-flight record meets a new frame; a new frame has no answer yet. -/
def Station.launch (seq : Half) (s : Station) : Station :=
  let s := match s.ring.inFlight with
    | none => s
    | some _ => s.declareLost
  { s with ring := { s.ring with inFlight := some seq }, mgmt := { s.mgmt with answer := none } }

/-- R89, R106, R107: no setpoint of this frame has been sent yet. -/
def Station.beginOutbound (s : Station) : Station :=
  { s with heads := s.heads.map fun w => { w with gate := w.gate.passBegins, engine := w.engine.map Cycle.passBegins } }

/-- R7, R8, R23: the header of a CYCLE frame on the outbound pass. -/
def Station.outboundHeader (f : Frame) (s : Station) : Station :=
  let s : Station := { s with ring := { s.ring with framesTaken := satInc s.ring.framesTaken, passSeq := f.seq } }
  ((s.headerHalt f.halt).launch f.seq).beginOutbound

/-- R16: one head's missing-section test. -/
def Station.missingTest (taken : List Role) (h : HeadNo) (s : Station) : Station :=
  if (s.head h).state.inService = true ∧ (Role.carriage h ∉ taken ∨ Role.tool h ∉ taken) then
    (s.raise .sectionMissing).toFault h .sectionMissing
  else s

/-- R14, R16: a CYCLE frame taken on the outbound pass. -/
def Station.takeOutbound (f : Frame) (edges : List StopEdge) (s : Station) : Station :=
  let p := (Pass.begin (s.outboundHeader f) edges).sections outboundSection f.sections
  let s := p.station.eachHead (Station.missingTest p.taken)
  (s.stopEdges p.edges).sendSpur ({ f with sections := p.out } : Frame).bytes

/-- R1, R2, R5, R14, R169: a frame arrives on LINE IN. -/
def Station.outbound (frame : List Byte) (edges : List StopEdge) (s : Station) : Station :=
  if s.ring.inReset then s.stopEdges edges
  else if s.ring.transparent then (s.sendSpur frame).stopEdges edges
  else
    match classify frame with
    | .damaged => (s.countDamaged.sendSpur frame).stopEdges edges
    | .other => (s.sendSpur frame).stopEdges edges
    | .cycle f => s.takeOutbound f edges

/-! ## The return pass -/

/-- R164: one head's block of the STATUS payload. -/
def Head.statusBytes (w : Head) : List Byte :=
  [w.state.code, stageCode w.engine] ++ claimedHole w.claim ++ u8 w.queue.length ++ [w.gate.state.code]

/-- R164: the station flags. -/
def Station.flagsByte (s : Station) : Byte :=
  (if s.ring.halt then 1 else 0) ||| (if s.faults.attention then 2 else 0) ||| (if s.faults.enabled ≠ 0 then 4 else 0)
    ||| (if s.results.hold then 8 else 0)

/-- R164: the STATUS payload, 32 bytes. -/
def Station.statusBytes (s : Station) : List Byte :=
  [s.table.jig.code, s.ring.address.setWidth 8] ++ bytes32 s.table.jigId ++ [s.flagsByte] ++ u8 s.results.records.length
    ++ (s.head 0).statusBytes ++ (s.head 1).statusBytes ++ (s.head 2).statusBytes ++ (s.head 3).statusBytes

/-- R162: the held answer is written. -/
def Station.answerBytes (payload : List Byte) (s : Station) : List Byte :=
  match s.mgmt.answer with
  | none => payload
  | some a => answerOut payload a

/-- R15: what the owners do on the return pass. -/
def returnSection (o : Owner) (payload : List Byte) (s : Station) : Station × List Byte :=
  match o with
  | .management => (s, s.answerBytes payload)
  | .role (.carriage h) => (s.carriageReturn h payload, payload)
  | .role (.tool h) => (s.toolReturn h payload, payload)
  | .role .status => (s, s.statusBytes)
  | .role .resultSlot => s.drain payload

/-- R9, R15: a return that is taken. Once it has been, no answer is held. -/
def Station.takeReturn (f : Frame) (edges : List StopEdge) (s : Station) : Station :=
  let s : Station := { s with ring := { s.ring with inFlight := none, losses := 0, passSeq := f.seq } }
  let p := (Pass.begin s edges).sections returnSection f.sections
  let s : Station := { p.station with mgmt := { p.station.mgmt with answer := none } }
  (s.stopEdges p.edges).sendLine ({ f with sections := p.out } : Frame).bytes

/-- R10: a damaged frame on SPUR IN declares the frame in flight lost. -/
def Station.damagedReturn (s : Station) : Station :=
  match s.ring.inFlight with
  | none => s
  | some q => ({ s with ring := { s.ring with inFlight := none, passSeq := q } } : Station).declareLost

/-- R9: a stale return. -/
def Station.countStale (s : Station) : Station :=
  { s with ring := { s.ring with staleReturns := satInc s.ring.staleReturns } }

/-- R1, R2, R5, R9, R10, R169: a frame arrives on SPUR IN. -/
def Station.inbound (frame : List Byte) (edges : List StopEdge) (s : Station) : Station :=
  if s.ring.inReset then s.stopEdges edges
  else if s.ring.transparent then (s.sendLine frame).stopEdges edges
  else
    match classify frame with
    | .damaged => (s.damagedReturn.countDamaged.sendLine frame).stopEdges edges
    | .other => (s.sendLine frame).stopEdges edges
    | .cycle f =>
      if s.ring.inFlight = some f.seq then s.takeReturn f edges else (s.countStale.sendLine frame).stopEdges edges

end Sys2Proof.Machine
end

