-- ==== Sys2Proof/Machine/Events.lean ====
section
/-!
DEFINITION. The events that are no passes and no requests: the pins, and the four counts that reach a limit on a head's TOOL
return. A limit event is the part of that cycle return which decides; the return's step is the pass's (log 7).
-/
namespace Sys2Proof.Machine

/-- R169: the RESET pin becomes asserted (log 19). -/
def Station.assertReset (s : Station) : Station := { s with ring := { s.ring with inReset := true } }

/-- A part of a cycle return of head `h` that is met when `due` holds of the head's cycle. -/
def Station.onLimit (h : HeadNo) (due : Head → Cycle → Bool) (f : Head → Run → Run) (s : Station) : Station :=
  if s.ring.active then
    match (s.head h).cycleReturning with
    | none => s
    | some (c, _) =>
      if due (s.head h) c then s.putRun h (f (s.head h) (.begin c (s.head h).state (s.head h).bank)) else s
  else s

/-- The feedback of a TOOL return of which only some fields matter. -/
def quietFeedback : Feedback :=
  { actual := 0, force := 0, torque := 0, spindle := 0, status := .ready, atHome := false, rivetPresent := false }

/-- R116: the spin-up count is above its limit, the head is ENGAGED and contact is not recognised. -/
def spinUpDue (w : Head) (c : Cycle) : Bool :=
  w.state == .engaged && match c.work with
    | .drill d => d.contact.isNone && decide (d.prof.spinUpLimit < c.frames)
    | .set _ => false

/-- R116: SPIN_UP_LIMIT, with the spindle speed that the return reports. -/
def Station.spinUpLimit (h : HeadNo) (spindle : Half) (s : Station) : Station :=
  s.onLimit h spinUpDue (fun _ r => r.spindle { quietFeedback with spindle := spindle.toNat })

/-- R127: in HOME WAIT, on a return whose frame carried 0, the home wait count stands at 1,000 or above. -/
def homeDue (_w : Head) (c : Cycle) : Bool := c.phase == .homeWait && c.sent == some 0 && decide (1000 ≤ c.homeWait)

/-- R127: TOOL_NOT_HOME, with the actual position and AT_HOME that the return reports. -/
def Station.toolNotHome (h : HeadNo) (actual : Word) (atHome : Bool) (s : Station) : Station :=
  s.onLimit h homeDue (fun w r => r.homeTest { quietFeedback with actual := actual.toInt, atHome } w.cfg.homeBand)

/-- R135: FEED_WAIT, with the feed count above the feed limit. -/
def feedDue (w : Head) (c : Cycle) : Bool :=
  w.state == .engaged && match c.work with
    | .drill _ => false
    | .set d => d.stage == .feedWait && decide (d.prof.feedLimit < c.frames)

/-- R135: RIVET_FEED_LIMIT, with the RIVET_PRESENT that the return reports. -/
def Station.rivetFeedLimit (h : HeadNo) (present : Bool) (s : Station) : Station :=
  s.onLimit h feedDue (fun _ => Run.onSet fun d r => r.feedTest present d)

/-- R139: HOLD, one return short of the dwell. -/
def dwellDue (w : Head) (c : Cycle) : Bool :=
  w.state == .engaged && match c.work with
    | .drill _ => false
    | .set d => d.stage == .hold && decide (d.prof.dwell ≤ d.dwellCount + 1)

/-- R139: DWELL_COMPLETE, with the force that the return reports. -/
def Station.dwellComplete (h : HeadNo) (force : Half) (s : Station) : Station :=
  s.onLimit h dwellDue (fun _ => Run.onSet fun d r => r.dwellTest force.toNat d)

end Sys2Proof.Machine
end

