-- ==== Sys2Proof/Machine/Commands.lean ====
section
/-!
DEFINITION. One meaning per command: its effect on everything but the queue. Every command ends in a next state: what the spec
calls a refusal of a request is an answer (R162), and what it calls a fault is state (R63, R165).
-/
namespace Sys2Proof.Machine

/-- A command acts on the station and leaves the queue of waiting commands alone. -/
def State.onStation (f : Station → Station) (s : State) : Host.Outcome State Fault Refusal :=
  .next { s with toStation := f s.toStation }

/-- R162: a request reaches the Management Agent of a part that takes frames; a part in reset (R169) or a transparent one (R2)
takes no request. -/
def Station.request (f : Station → Station × Reply) (s : Station) : Station := if s.ring.active then s.take f else s

/-- A request taken as a command of its own (log 1). -/
def State.onRequest (f : Station → Station × Reply) (s : State) : Host.Outcome State Fault Refusal :=
  s.onStation (Station.request f)

/-- R2, R169: POWER_ON_RESET; it is taken in every state. -/
def execPowerOnReset (pins : BitVec 6) (stop : Bool) (s : State) : Host.Outcome State Fault Refusal :=
  s.onStation (Station.powerOn pins stop)

/-- R169: RESET_PIN_ASSERT. -/
def execResetPinAssert (s : State) : Host.Outcome State Fault Refusal := s.onStation Station.assertReset

/-- R151: STOP_PIN_CHANGE. -/
def execStopPinChange (asserted : Bool) (s : State) : Host.Outcome State Fault Refusal :=
  s.onStation (Station.stopLevel asserted)

/-- R14: OUTBOUND_PASS. -/
def execOutboundPass (frame : List Byte) (edges : List StopEdge) (s : State) : Host.Outcome State Fault Refusal :=
  s.onStation (Station.outbound frame edges)

/-- R15: RETURN_PASS. -/
def execReturnPass (frame : List Byte) (edges : List StopEdge) (s : State) : Host.Outcome State Fault Refusal :=
  s.onStation (Station.inbound frame edges)

/-- R116: SPIN_UP_LIMIT. -/
def execSpinUpLimit (h : HeadNo) (spindle : Half) (s : State) : Host.Outcome State Fault Refusal :=
  s.onStation (Station.spinUpLimit h spindle)

/-- R127: TOOL_NOT_HOME. -/
def execToolNotHome (h : HeadNo) (actual : Word) (atHome : Bool) (s : State) : Host.Outcome State Fault Refusal :=
  s.onStation (Station.toolNotHome h actual atHome)

/-- R135: RIVET_FEED_LIMIT. -/
def execRivetFeedLimit (h : HeadNo) (present : Bool) (s : State) : Host.Outcome State Fault Refusal :=
  s.onStation (Station.rivetFeedLimit h present)

/-- R139: DWELL_COMPLETE. -/
def execDwellComplete (h : HeadNo) (force : Half) (s : State) : Host.Outcome State Fault Refusal :=
  s.onStation (Station.dwellComplete h force)

/-- R26: JIG_LOAD as a request taken (log 1). -/
def execJigLoad (id : Word) (s : State) : Host.Outcome State Fault Refusal := s.onRequest (jigLoad id)

/-- R27: JIG_START as a request taken (log 1). -/
def execJigStart (s : State) : Host.Outcome State Fault Refusal := s.onRequest jigStart

/-- R28: JIG_RELEASE as a request taken (log 1). -/
def execJigRelease (s : State) : Host.Outcome State Fault Refusal := s.onRequest jigRelease

/-- R31: HOLE_WRITE_A as a request taken (log 1). -/
def execHoleWriteA (index : Half) (x t : Word) (face : Byte) (s : State) : Host.Outcome State Fault Refusal :=
  s.onRequest (holeWriteA index x t face)

/-- R32, R33: HOLE_WRITE_B as a request taken (log 1). -/
def execHoleWriteB (index : Half) (drill set : Byte) (depth stroke : Word) (s : State) : Host.Outcome State Fault Refusal :=
  s.onRequest (holeWriteB index drill set depth stroke)

/-- R42: HOLE_SKIP as a request taken (log 1). -/
def execHoleSkip (index : Half) (s : State) : Host.Outcome State Fault Refusal := s.onRequest (holeSkip index)

/-- R43: HOLE_READ as a request taken (log 1). -/
def execHoleRead (index : Half) (s : State) : Host.Outcome State Fault Refusal := s.onRequest (holeRead index)

/-- R46: CORRECTION_POINT as a request taken (log 1). -/
def execCorrectionPoint (k : Byte) (x dx dt : Word) (s : State) : Host.Outcome State Fault Refusal :=
  s.onRequest (correctionPoint k x dx dt)

/-- R47: CORRECTION_COMMIT as a request taken (log 1). -/
def execCorrectionCommit (m : Byte) (s : State) : Host.Outcome State Fault Refusal := s.onRequest (correctionCommit m)

/-- R54, R55: CORRECTION_READ as a request taken (log 1). -/
def execCorrectionRead (which : Byte) (k : Half) (s : State) : Host.Outcome State Fault Refusal :=
  s.onRequest (correctionRead which k)

/-- R93: PROFILE_BEGIN as a request taken (log 1). -/
def execProfileBegin (p kind : Byte) (s : State) : Host.Outcome State Fault Refusal := s.onRequest (profileBegin p kind)

/-- R97: PROFILE_FIELDS as a request taken (log 1). -/
def execProfileFields (p group : Byte) (values : List Byte) (s : State) : Host.Outcome State Fault Refusal :=
  s.onRequest (profileFields p group values)

/-- R98: PROFILE_LAYER as a request taken (log 1). -/
def execProfileLayer (p i : Byte) (thickness feed : Word) (s : State) : Host.Outcome State Fault Refusal :=
  s.onRequest (profileLayer p i thickness feed)

/-- R99: PROFILE_COMPARATOR as a request taken (log 1). -/
def execProfileComparator (p k source condition : Byte) (low high : Word) (mask : Half) (count action : Byte) (s : State) :
    Host.Outcome State Fault Refusal :=
  s.onRequest (profileComparator p k source condition low high mask count action)

/-- R100: PROFILE_END as a request taken (log 1). -/
def execProfileEnd (p : Byte) (s : State) : Host.Outcome State Fault Refusal := s.onRequest (profileEnd p)

/-- R101: PROFILE_READ as a request taken (log 1). -/
def execProfileRead (p part : Byte) (s : State) : Host.Outcome State Fault Refusal := s.onRequest (profileRead p part)

/-- R57: HEAD_CONFIG as a request taken (log 1). -/
def execHeadConfig (h kind face group : Byte) (ox ot w band : Word) (count : Byte) (shift : Word) (mode : Byte) (home : Word) (s : State) :
    Host.Outcome State Fault Refusal :=
  s.onRequest (headConfig h kind face group ox ot w band count shift mode home)

/-- R60: HEAD_ENABLE as a request taken (log 1). -/
def execHeadEnable (h : Byte) (s : State) : Host.Outcome State Fault Refusal := s.onRequest (headEnable h)

/-- R61: HEAD_DISABLE as a request taken (log 1). -/
def execHeadDisable (h : Byte) (s : State) : Host.Outcome State Fault Refusal := s.onRequest (headDisable h)

/-- R62: HEAD_CLEAR as a request taken (log 1). -/
def execHeadClear (h : Byte) (s : State) : Host.Outcome State Fault Refusal := s.onRequest (headClear h)

/-- R67: ASSIGN as a request taken (log 1). -/
def execAssign (h : Byte) (i : Half) (s : State) : Host.Outcome State Fault Refusal := s.onRequest (assign h i)

/-- R68: WITHDRAW as a request taken (log 1). -/
def execWithdraw (h : Byte) (s : State) : Host.Outcome State Fault Refusal := s.onRequest (withdraw h)

/-- R76: START as a request taken (log 1). -/
def execStart (set : Byte) (s : State) : Host.Outcome State Fault Refusal := s.onRequest (start set)

/-- R64, R148: RESUME as a request taken (log 1). -/
def execResume (h : Byte) (s : State) : Host.Outcome State Fault Refusal := s.onRequest (resume h)

/-- R149: CANCEL as a request taken (log 1). -/
def execCancel (h : Byte) (s : State) : Host.Outcome State Fault Refusal := s.onRequest (cancel h)

/-- R79: HEAD_READ as a request taken (log 1). -/
def execHeadRead (h : Byte) (s : State) : Host.Outcome State Fault Refusal := s.onRequest (headRead h)

/-- R19: MAP_WRITE as a request taken (log 1). -/
def execMapWrite (e id role head : Byte) (s : State) : Host.Outcome State Fault Refusal := s.onRequest (mapWrite e id role head)

/-- R20: MAP_CLEAR as a request taken (log 1). -/
def execMapClear (s : State) : Host.Outcome State Fault Refusal := s.onRequest mapClear

/-- R58: GROUP_CONFIG as a request taken (log 1). -/
def execGroupConfig (g : Byte) (d : Word) (s : State) : Host.Outcome State Fault Refusal := s.onRequest (groupConfig g d)

/-- R163: STATION_CONFIG as a request taken (log 1). -/
def execStationConfig (limit : Byte) (upper lower : Half) (s : State) : Host.Outcome State Fault Refusal :=
  s.onRequest (stationConfig limit upper lower)

/-- R160: RESULT_READ as a request taken (log 1). -/
def execResultRead (k : Byte) (s : State) : Host.Outcome State Fault Refusal := s.onRequest (resultRead k)

/-- R161: RESULT_FLUSH as a request taken (log 1). -/
def execResultFlush (s : State) : Host.Outcome State Fault Refusal := s.onRequest resultFlush

/-- R166: FAULT_READ as a request taken (log 1). -/
def execFaultRead (s : State) : Host.Outcome State Fault Refusal := s.onRequest faultRead

/-- R166: FAULT_CLEAR as a request taken (log 1). -/
def execFaultClear (set : Half) (s : State) : Host.Outcome State Fault Refusal := s.onRequest (faultClear set)

/-- R166: FAULT_ENABLE as a request taken (log 1). -/
def execFaultEnable (set : Half) (s : State) : Host.Outcome State Fault Refusal := s.onRequest (faultEnable set)

/-- R167: ATTENTION_REARM as a request taken (log 1). -/
def execAttentionRearm (s : State) : Host.Outcome State Fault Refusal := s.onRequest attentionRearm

/-- R168: COUNTER_READ as a request taken (log 1). -/
def execCounterRead (s : State) : Host.Outcome State Fault Refusal := s.onRequest counterRead

/-- R169: STATION_RESET as a request taken (log 1). -/
def execStationReset (s : State) : Host.Outcome State Fault Refusal := s.onRequest stationReset

end Sys2Proof.Machine
end

