-- ==== Sys2Proof/Machine/Dispatch.lean ====
section
/-! DEFINITION. Which meaning each command has, one arm per constructor of Instr. -/
namespace Sys2Proof.Machine

/-- The effect of a command on everything but the queue of waiting commands. -/
def exec (i : Instr) (s : State) : Host.Outcome State Fault Refusal :=
  match i with
  | .powerOnReset pins stop => Sys2Proof.Machine.execPowerOnReset pins stop s
  | .resetPinAssert => Sys2Proof.Machine.execResetPinAssert s
  | .stopPinChange asserted => Sys2Proof.Machine.execStopPinChange asserted s
  | .outboundPass frame edges => Sys2Proof.Machine.execOutboundPass frame edges s
  | .returnPass frame edges => Sys2Proof.Machine.execReturnPass frame edges s
  | .spinUpLimit h spindle => Sys2Proof.Machine.execSpinUpLimit h spindle s
  | .toolNotHome h actual atHome => Sys2Proof.Machine.execToolNotHome h actual atHome s
  | .rivetFeedLimit h present => Sys2Proof.Machine.execRivetFeedLimit h present s
  | .dwellComplete h force => Sys2Proof.Machine.execDwellComplete h force s
  | .jigLoad id => Sys2Proof.Machine.execJigLoad id s
  | .jigStart => Sys2Proof.Machine.execJigStart s
  | .jigRelease => Sys2Proof.Machine.execJigRelease s
  | .holeWriteA index x t face => Sys2Proof.Machine.execHoleWriteA index x t face s
  | .holeWriteB index drill set depth stroke => Sys2Proof.Machine.execHoleWriteB index drill set depth stroke s
  | .holeSkip index => Sys2Proof.Machine.execHoleSkip index s
  | .holeRead index => Sys2Proof.Machine.execHoleRead index s
  | .correctionPoint k x dx dt => Sys2Proof.Machine.execCorrectionPoint k x dx dt s
  | .correctionCommit m => Sys2Proof.Machine.execCorrectionCommit m s
  | .correctionRead which k => Sys2Proof.Machine.execCorrectionRead which k s
  | .profileBegin p kind => Sys2Proof.Machine.execProfileBegin p kind s
  | .profileFields p group values => Sys2Proof.Machine.execProfileFields p group values s
  | .profileLayer p slot thickness feed => Sys2Proof.Machine.execProfileLayer p slot thickness feed s
  | .profileComparator p k source condition low high mask count action => Sys2Proof.Machine.execProfileComparator p k source condition low high mask count action s
  | .profileEnd p => Sys2Proof.Machine.execProfileEnd p s
  | .profileRead p part => Sys2Proof.Machine.execProfileRead p part s
  | .headConfig h kind face group ox ot w band count shift mode home => Sys2Proof.Machine.execHeadConfig h kind face group ox ot w band count shift mode home s
  | .headEnable h => Sys2Proof.Machine.execHeadEnable h s
  | .headDisable h => Sys2Proof.Machine.execHeadDisable h s
  | .headClear h => Sys2Proof.Machine.execHeadClear h s
  | .assign h hole => Sys2Proof.Machine.execAssign h hole s
  | .withdraw h => Sys2Proof.Machine.execWithdraw h s
  | .start set => Sys2Proof.Machine.execStart set s
  | .resume h => Sys2Proof.Machine.execResume h s
  | .cancel h => Sys2Proof.Machine.execCancel h s
  | .headRead h => Sys2Proof.Machine.execHeadRead h s
  | .mapWrite e id role head => Sys2Proof.Machine.execMapWrite e id role head s
  | .mapClear => Sys2Proof.Machine.execMapClear s
  | .groupConfig g d => Sys2Proof.Machine.execGroupConfig g d s
  | .stationConfig limit upper lower => Sys2Proof.Machine.execStationConfig limit upper lower s
  | .resultRead k => Sys2Proof.Machine.execResultRead k s
  | .resultFlush => Sys2Proof.Machine.execResultFlush s
  | .faultRead => Sys2Proof.Machine.execFaultRead s
  | .faultClear set => Sys2Proof.Machine.execFaultClear set s
  | .faultEnable set => Sys2Proof.Machine.execFaultEnable set s
  | .attentionRearm => Sys2Proof.Machine.execAttentionRearm s
  | .counterRead => Sys2Proof.Machine.execCounterRead s
  | .stationReset => Sys2Proof.Machine.execStationReset s

end Sys2Proof.Machine
end

