-- ==== Sys2Proof/Safety.lean ====
section
/-!
DEFINITION. The terms in which claims are stated: the answer a request leaves, and the laws of the device that every step keeps.
-/
namespace Sys2Proof.Machine

/-! ## What a request leaves -/

/-- R162: the state with the answer DONE held, and its data; nothing else changed. -/
def State.doneWith (data : List Byte) (s : State) : State := { s with mgmt := { s.mgmt with answer := some (.done data) } }

/-- R162: the state with the answer DONE with CLAMPED held, and its data; nothing else changed. -/
def State.clampedWith (data : List Byte) (s : State) : State :=
  { s with mgmt := { s.mgmt with answer := some (.clamped data) } }

/-- R162: the state with the answer REFUSED held for one reason and the refusal counted; nothing else changed. -/
def State.refusedWith (why : Denial) (s : State) : State :=
  { s with mgmt := { answer := some (.refused why), refused := satInc s.mgmt.refused } }

/-- R151: the state after STOP changes that fall inside a pass, one after the other (log 3). -/
def State.afterEdges (edges : List StopEdge) (s : State) : State := { s with toStation := s.toStation.stopEdges edges }

/-- The state with one head replaced; nothing else changed. -/
def State.withHead (h : HeadNo) (w : Head) (s : State) : State := { s with heads := s.heads.set h w }

/-! ## The checks of the requests

R162: "A refused request carries exactly one reason, the one given by the first check that failed in the owning rule."
Each list holds the checks of one rule in its order, for a head or group number of 0 to 3: whether the check fails, and the
reason it gives. -/

/-- R162: the reason of the first check that fails. -/
def firstFailing : List (Bool × Denial) → Option Denial
  | [] => none
  | (fails, why) :: rest => if fails then some why else firstFailing rest

/-- The byte that names a head or a group. -/
def headByte (h : HeadNo) : Byte := BitVec.ofNat 8 h.val

/-- R27. -/
def jigStartChecks (s : State) : List (Bool × Denial) :=
  [(decide (s.table.jig ≠ .loading ∨ s.table.holes = []), .state)]

/-- R28. -/
def jigReleaseChecks (s : State) : List (Bool × Denial) :=
  [(decide (s.table.jig ≠ .working) || allFour.any fun h => (s.head h).claim.isSome, .state)]

/-- R31. -/
def holeWriteAChecks (index : Half) (x t : Word) (face : Byte) (s : State) : List (Bool × Denial) :=
  [(decide (s.table.jig ≠ .loading), .state),
   (decide (1023 < index.toNat), .badIndex),
   (decide (x.toInt < 0 ∨ 25000000 < x.toInt ∨ t.toInt < 0 ∨ 3000000 < t.toInt ∨ 2 < face.toNat), .badValue)]

/-- R32. -/
def holeWriteBChecks (index : Half) (drill set : Byte) (depth stroke : Word) (s : State) : List (Bool × Denial) :=
  [(decide (s.table.jig ≠ .loading), .state),
   (decide (1023 < index.toNat), .badIndex),
   (decide ((s.table.halfA.map fun a => a.index) ≠ some index.toNat), .noHalfA),
   (decide ((31 < drill.toNat ∧ drill ≠ 0xFF) ∨ (31 < set.toNat ∧ set ≠ 0xFF) ∨ (drill = 0xFF ∧ set = 0xFF)
     ∨ depth.toInt < 0 ∨ 250000 < depth.toInt ∨ stroke.toInt < 0 ∨ 80000 < stroke.toInt), .badValue)]

/-- R42. -/
def holeSkipChecks (index : Half) (s : State) : List (Bool × Denial) :=
  [(decide (s.table.jig ≠ .loading ∧ s.table.jig ≠ .working), .state),
   (decide (1023 < index.toNat ∨ s.hole index.toNat = none), .badIndex),
   ((s.hole index.toNat).any fun v => v.claimant.isSome, .state),
   ((s.hole index.toNat).any fun v => v.terminal, .state)]

/-- R46. -/
def correctionPointChecks (k : Byte) (x dx dt : Word) : List (Bool × Denial) :=
  [(decide (15 < k.toNat), .badIndex),
   (decide (x.toInt < 0 ∨ 25000000 < x.toInt ∨ dx.toInt < -20000 ∨ 20000 < dx.toInt ∨ dt.toInt < -20000
     ∨ 20000 < dt.toInt), .badValue)]

/-- R47: the written points among the staging points 0 to m-1, in their order. -/
def stagedUpTo (m : Byte) (s : State) : List Point :=
  (List.range m.toNat).filterMap fun k => Table.find s.correction.staging k

/-- R47. -/
def correctionCommitChecks (m : Byte) (s : State) : List (Bool × Denial) :=
  [(decide (16 < m.toNat), .badValue),
   ((List.range m.toNat).any fun k => (Table.find s.correction.staging k).isNone, .order),
   (decide (¬ (stagedUpTo m s).Pairwise fun a b => a.x < b.x), .order)]

/-- R94: some head holds a claim on a hole whose drill or set profile is this one. -/
def profileHeld (p : Byte) (s : State) : Bool :=
  allFour.any fun h => (s.head h).claim.any fun c => (s.hole c.hole).any fun v =>
    decide (v.drill = some p.toNat ∨ v.set = some p.toNat)

/-- R93. -/
def profileBeginChecks (p kind : Byte) (s : State) : List (Bool × Denial) :=
  [(decide (31 < p.toNat), .badIndex), (decide (1 < kind.toNat), .badValue), (profileHeld p s, .inUse)]

/-- R97 to R100: a profile is LOADING. -/
def profileLoading (p : Byte) (s : State) : Bool := (s.profile p.toNat).any fun q => q.state == .loading

/-- A profile's kind is SET. -/
def profileSets (p : Byte) (s : State) : Bool := (s.profile p.toNat).any fun q => q.body.kind == .set

/-- R97. -/
def profileFieldsChecks (p group : Byte) (values : List Byte) (s : State) : List (Bool × Denial) :=
  [(decide (31 < p.toNat), .badIndex),
   (!profileLoading p s, .state),
   (decide (2 < group.toNat) || (profileSets p s && decide (group = 2 ∧ 1 < (byteAt values 12).toNat)), .badValue)]

/-- R98. -/
def profileLayerChecks (p i : Byte) (s : State) : List (Bool × Denial) :=
  [(decide (31 < p.toNat ∨ i.toNat < 1 ∨ 6 < i.toNat), .badIndex), (!profileLoading p s, .state),
   (profileSets p s, .operation)]

/-- R99. -/
def profileComparatorChecks (p k source condition action : Byte) (s : State) : List (Bool × Denial) :=
  [(decide (31 < p.toNat ∨ 5 < k.toNat), .badIndex),
   (!profileLoading p s, .state),
   (decide (6 < source.toNat ∨ (source ≠ 0 ∧ (3 < condition.toNat ∨ 4 < action.toNat))), .badValue)]

/-- R100. -/
def profileEndChecks (p : Byte) (s : State) : List (Bool × Denial) :=
  [(decide (31 < p.toNat), .badIndex), (!profileLoading p s, .state)]

/-- R57. -/
def headConfigChecks (h : HeadNo) (kind face mode : Byte) (s : State) : List (Bool × Denial) :=
  [(decide ((s.head h).state ≠ .offline), .state),
   (decide (1 < kind.toNat ∨ 2 < face.toNat ∨ 1 < mode.toNat), .badValue)]

/-- R58: two heads of a group hold claims closer together than a distance. -/
def holdersCloserThan (g : Fin 4) (d : Int) (s : State) : Bool :=
  allFour.any fun i => allFour.any fun j =>
    decide (i ≠ j ∧ (s.head i).cfg.group = g ∧ (s.head j).cfg.group = g) &&
      (s.head i).claim.any fun a => (s.head j).claim.any fun b => decide (magnitude (a.claimX - b.claimX) < d)

/-- R58: the clamped distance. -/
def keepOutClamped (d : Word) : Int := max 0 (min 3000000 d.toInt)

/-- R58. -/
def groupConfigChecks (g : Fin 4) (d : Word) (s : State) : List (Bool × Denial) :=
  [(holdersCloserThan g (keepOutClamped d) s, .inUse)]

/-- R60. -/
def headEnableChecks (h : HeadNo) (s : State) : List (Bool × Denial) :=
  [(decide ((s.head h).state ≠ .offline), .state),
   (!((s.ring.map.any fun e => e.2.role == .carriage h) && (s.ring.map.any fun e => e.2.role == .tool h)), .map)]

/-- R61. -/
def headDisableChecks (h : HeadNo) (s : State) : List (Bool × Denial) :=
  [(decide ((s.head h).state = .engaged ∨ (s.head h).state = .frozen ∨ (s.head h).state = .retracting), .state)]

/-- R62. -/
def headClearChecks (h : HeadNo) (s : State) : List (Bool × Denial) :=
  [(decide ((s.head h).state ≠ .fault ∧ (s.head h).state ≠ .halted), .state)]

/-- R67. -/
def assignChecks (h : HeadNo) (i : Half) (s : State) : List (Bool × Denial) :=
  [(decide (1023 < i.toNat), .badIndex),
   (decide ((s.head h).state = .offline ∨ (s.head h).state = .fault
     ∨ (s.table.jig ≠ .loading ∧ s.table.jig ≠ .working)), .state),
   (decide (s.hole i.toNat = none), .badIndex),
   (decide (8 ≤ (s.head h).queue.length), .full),
   (decide (i.toNat ∈ (s.head h).queue), .duplicate),
   ((s.hole i.toNat).any fun v => decide (v.face ≠ (s.head h).cfg.face), .face),
   ((s.hole i.toNat).any fun v => decide (((s.head h).cfg.kind = .drill ∧ v.drill = none)
     ∨ ((s.head h).cfg.kind = .set ∧ v.set = none)), .operation)]

/-- R76: a head that START names and that is ARMED. -/
def started (set : Byte) (s : State) (h : HeadNo) : Bool := set.getLsbD h.val && (s.head h).state == .armed

/-- R76. -/
def startChecks (set : Byte) (s : State) : List (Bool × Denial) := [(!allFour.any (started set s), .state)]

/-- R64. -/
def resumeChecks (h : HeadNo) (s : State) : List (Bool × Denial) :=
  [(s.ring.halt, .state), (decide ((s.head h).state ≠ .halted ∧ (s.head h).state ≠ .frozen), .state)]

/-- R149. -/
def cancelChecks (h : HeadNo) (s : State) : List (Bool × Denial) := [(decide ((s.head h).state ≠ .frozen), .state)]

/-- R19, R20: a head is not OFFLINE. -/
def someHeadInService (s : State) : Bool := allFour.any fun h => (s.head h).state != .offline

/-- R19: the role that a role code other than NONE gives, with its head. -/
def codedRole (role head : Byte) : Role :=
  if role = 1 then .carriage (Fin.ofNat 4 head.toNat)
  else if role = 2 then .tool (Fin.ofNat 4 head.toNat)
  else if role = 3 then .status
  else .resultSlot

/-- R19, for a role that uses the id; `e`'s old contents are not counted. -/
def mapWriteChecks (e id role head : Byte) (s : State) : List (Bool × Denial) :=
  [(someHeadInService s, .state),
   (decide (31 < e.toNat), .badIndex),
   (decide (4 < role.toNat ∨ (role ≠ 0 ∧ (id.toNat < 1 ∨ 191 < id.toNat)) ∨ ((role = 1 ∨ role = 2) ∧ 3 < head.toNat)),
     .badValue),
   (decide (role ≠ 0) && (Table.remove s.ring.map e.toNat).any fun x => x.2.id == id.toNat, .duplicate),
   (decide (role ≠ 0 ∧ (codedRole role head).room
     ≤ ((Table.remove s.ring.map e.toNat).filter fun x => x.2.role == codedRole role head).length), .full)]

/-- R160. -/
def resultReadChecks (k : Byte) (s : State) : List (Bool × Denial) :=
  [(decide (s.results.records.length ≤ k.toNat), .badIndex)]

/-! ## Frames -/

/-- R3, R4: a sound CYCLE frame: a header of seven bytes with kind 01h, the frame length and the section count of the frame it
heads, and 1 to 48 sections with ids of 1 to 254. Frame.bytes is such a frame with its check. -/
def Frame.sound (f : Frame) : Prop :=
  f.header.length = 7 ∧ byteAt f.header 0 = 0x01
    ∧ (halfAt f.header 4).toNat = f.bytes.length ∧ f.bytes.length ≤ 1500
    ∧ (byteAt f.header 6).toNat = f.sections.length ∧ 1 ≤ f.sections.length ∧ f.sections.length ≤ 48
    ∧ ∀ x ∈ f.sections, 1 ≤ x.id ∧ x.id ≤ 254 ∧ x.payload.length ≤ 255

/-! ## Reset values -/

/-- R59, R56, R80, R104, R143, R22: a head after a reset. -/
def Head.atReset (h : HeadNo) : Head :=
  { cfg :=
      { kind := .drill, face := .left, group := h, offsetX := 0, offsetT := 0, window := 500, settleBand := 50,
        settleCount := 4, shiftLimit := 300, startMode := .auto, homeBand := 200 }
    state := .offline, queue := [], settle := 0, claim := none, lastRefusal := .none, faultCause := none
    carriageStatus := .notReady, toolStatus := .notReady
    gate := { state := .opened, passed := none, held := none, sent := none, deviation := none, holdDistance := 0 }
    engine := none
    bank := { live := [], latch := none, notes := 0, ease := none } }

/-- R169: what every block but the ring and the Management Agent holds after a reset. HALT, and so the attention latch, follow
the STOP pin (R151, R167). -/
def State.atResetValues (s : State) : Prop :=
  s.table = { jig := .empty, jigId := 0, complete := false, holes := [], halfA := none }
    ∧ s.correction = { staging := [], active := [] }
    ∧ (∀ h : HeadNo, s.head h = Head.atReset h ∧ s.keepOut.get h = 0)
    ∧ s.profiles = []
    ∧ s.results = { records := [], upper := 48, lower := 16, hold := false }
    ∧ s.faults = { raw := if s.ring.stopPin then FaultKind.halt.bit else 0, enable := BitVec.allOnes 15,
                   attention := s.ring.stopPin, armed := !s.ring.stopPin }

/-! ## Laws of the device -/

/-- The canonical form of every sparse table: keys strictly rising. -/
def Body.canonical : Body → Bool
  | .drill _ layers => Table.wf layers
  | .set _ => true

/-- The canonical form of a profile's tables. -/
def Profile.canonical (q : Profile) : Bool := q.body.canonical && Table.wf q.comparators

/-- The canonical form of every table of the station: equal contents are equal data. -/
def Station.canonical (s : Station) : Bool :=
  Table.wf s.ring.map && Table.wf s.table.holes && Table.wf s.correction.staging && Table.wf s.profiles
    && s.profiles.all fun e => e.2.canonical

/-- R18: the four limits of the section map, and the ids and entry numbers it may use. -/
def mapLegal (m : Table MapEntry) : Prop :=
  (m.map fun e => e.2.id).Nodup
    ∧ (∀ r : Role, (m.filter fun e => e.2.role == r).length ≤ r.room)
    ∧ ∀ e ∈ m, e.1 ≤ 31 ∧ 1 ≤ e.2.id ∧ e.2.id ≤ 191

/-- R66: an assignment queue never holds more than 8 entries or the same hole twice. -/
def Station.queuesLegal (s : Station) : Prop := ∀ h : HeadNo, (s.head h).queue.length ≤ 8 ∧ (s.head h).queue.Nodup

/-- R47, R45: the active points are strictly ascending, and at most 16. -/
def Station.correctionLegal (s : Station) : Prop :=
  ascending s.correction.active = true ∧ s.correction.active.length ≤ 16

/-- R167: while the armed flag is set, no enabled kind is raw. -/
def Station.attentionLegal (s : Station) : Prop := s.faults.armed = true → s.faults.enabled = 0

/-- R64: the states in which no head stands while the halt is present. -/
def HeadState.startsWork : HeadState → Bool
  | .idle | .seeking | .settling | .armed => true
  | .offline | .engaged | .frozen | .retracting | .halted | .fault => false

/-- R64: a head never stands in IDLE, SEEKING, SETTLING or ARMED while the halt is present (of a part that takes events). -/
def Station.haltLegal (s : Station) : Prop :=
  s.ring.active = true → s.ring.halt = true → ∀ h : HeadNo, (s.head h).state.startsWork = false

/-- R59: the states in which a head holds a claim. -/
def HeadState.claiming : HeadState → Bool
  | .settling | .armed | .engaged | .frozen | .retracting => true
  | .offline | .idle | .seeking | .halted | .fault => false

/-- R59, R78: a head holds a claim exactly in its claiming states, and has a cycle exactly in ENGAGED, FROZEN and RETRACTING. -/
def Head.legal (w : Head) : Prop := w.claim.isSome = w.state.claiming ∧ w.engine.isSome = w.state.inCycle

/-- R59: every head is legal. -/
def Station.headsLegal (s : Station) : Prop := ∀ h : HeadNo, (s.head h).legal

/-- R73: any two heads of one group that both hold claims have claim X values at least the group's keep-out distance apart. -/
def Station.keepOutLegal (s : Station) : Prop :=
  ∀ i j : HeadNo, i ≠ j → (s.head i).cfg.group = (s.head j).cfg.group → ∀ a b : Claim, (s.head i).claim = some a →
    (s.head j).claim = some b → s.keepOut.get (s.head i).cfg.group ≤ magnitude (a.claimX - b.claimX)

/-- The number of claims standing. -/
def Station.claims (s : Station) : Nat := (allFour.filter fun h => (s.head h).claim.isSome).length

/-- R157 to R159: the thresholds in their ranges, the hold as the hold test leaves it, and room for a record of every claim
standing below 64. -/
def Station.resultsLegal (s : Station) : Prop :=
  8 ≤ s.results.upper ∧ s.results.upper ≤ 60 ∧ s.results.lower + 8 ≤ s.results.upper
    ∧ (s.results.hold = false → s.results.records.length < s.results.upper)
    ∧ (s.results.hold = true → s.results.lower < s.results.records.length)
    ∧ s.results.records.length + s.claims ≤ 63

end Sys2Proof.Machine
end

