-- ==== Sys2Proof/WellFormed.lean ====
section
/-!
DEFINITION. Which commands are well formed, beyond what the types of their operands already say.
The machine gives every command a meaning; these checks say which ones the outside world can really send.
-/
namespace Sys2Proof

/-- STOP edges inside a pass come in the order in which they fall, and none falls beyond the 48 sections a frame can have (R4). -/
def edgesWellFormed : List StopEdge → Bool
  | [] => true
  | [e] => decide (e.before ≤ 48)
  | e :: e' :: es => decide (e.before ≤ e'.before) && edgesWellFormed (e' :: es)

/-- The bytes of a PROFILE FIELDS request after *p* and *group*: what is left of the 76 argument bytes of a MGMT payload (R24). -/
def profileFieldBytes : Nat := 74

/-- A command that the outside world can send. -/
def Instr.wellFormed : Instr → Bool
  | .outboundPass _ edges => edgesWellFormed edges
  | .returnPass _ edges => edgesWellFormed edges
  | .profileFields _ _ values => decide (values.length = profileFieldBytes)
  | .powerOnReset _ _ | .resetPinAssert | .stopPinChange _ => true
  | .spinUpLimit _ _ | .toolNotHome _ _ _ | .rivetFeedLimit _ _ | .dwellComplete _ _ => true
  | .jigLoad _ | .jigStart | .jigRelease | .holeWriteA _ _ _ _ | .holeWriteB _ _ _ _ _ | .holeSkip _ | .holeRead _ => true
  | .correctionPoint _ _ _ _ | .correctionCommit _ | .correctionRead _ _ => true
  | .profileBegin _ _ | .profileLayer _ _ _ _ | .profileComparator _ _ _ _ _ _ _ _ _ | .profileEnd _ | .profileRead _ _ => true
  | .headConfig _ _ _ _ _ _ _ _ _ _ _ _ | .headEnable _ | .headDisable _ | .headClear _ => true
  | .assign _ _ | .withdraw _ | .start _ | .resume _ | .cancel _ | .headRead _ => true
  | .mapWrite _ _ _ _ | .mapClear | .groupConfig _ _ | .stationConfig _ _ _ => true
  | .resultRead _ | .resultFlush | .faultRead | .faultClear _ | .faultEnable _ | .attentionRearm => true
  | .counterRead | .stationReset => true

/-- The commands that are management requests: the rows of section 11.2. -/
def Instr.isRequest : Instr → Bool
  | .powerOnReset _ _ | .resetPinAssert | .stopPinChange _ | .outboundPass _ _ | .returnPass _ _ => false
  | .spinUpLimit _ _ | .toolNotHome _ _ _ | .rivetFeedLimit _ _ | .dwellComplete _ _ => false
  | .jigLoad _ | .jigStart | .jigRelease | .holeWriteA _ _ _ _ | .holeWriteB _ _ _ _ _ | .holeSkip _ | .holeRead _ => true
  | .correctionPoint _ _ _ _ | .correctionCommit _ | .correctionRead _ _ => true
  | .profileBegin _ _ | .profileFields _ _ _ | .profileLayer _ _ _ _ | .profileComparator _ _ _ _ _ _ _ _ _ => true
  | .profileEnd _ | .profileRead _ _ => true
  | .headConfig _ _ _ _ _ _ _ _ _ _ _ _ | .headEnable _ | .headDisable _ | .headClear _ => true
  | .assign _ _ | .withdraw _ | .start _ | .resume _ | .cancel _ | .headRead _ => true
  | .mapWrite _ _ _ _ | .mapClear | .groupConfig _ _ | .stationConfig _ _ _ => true
  | .resultRead _ | .resultFlush | .faultRead | .faultClear _ | .faultEnable _ | .attentionRearm => true
  | .counterRead | .stationReset => true

end Sys2Proof
end

