-- ==== Sys2Proof/Certificates/Slice0/Obligations.lean ====
section
/-!
DEFINITION. The statements about the model. A statement about a request is about the request taken as a command (log 1), in a
part that takes frames (`ring.active`); `StepRunsTheFrontCommand` and `ManagementSectionRunsTheRequest` carry it to a run.
-/
open Sys2Proof Sys2Proof.Machine

/-! ## The machine, its pins and its resets -/

/-- One step takes the command at the front of the queue and runs it on the state with the queue's rest. On an empty queue the
part idles (the model's choice, log 2). -/
def Obligations.StepRunsTheFrontCommand : Prop :=
  (∀ (c : Instr) (s : State), step { s with pending := c :: s.pending } = exec c s)
    ∧ ∀ s : State, s.pending = [] → step s = .next s

/-- State.reset is the part right after its power-on reset: the values of R169 everywhere. The station address 1 (log 5), the
STOP level (log 6), and the empty output lists and pass sequence (log 4, log 8) are the model's choice. -/
def Obligations.ResetStateHoldsTheResetValues : Prop :=
  State.reset.atResetValues
    ∧ State.reset.ring =
        { address := 1, inReset := false, stopPin := false, headerHalt := false, inFlight := none, losses := 0, lossLimit := 3,
          framesTaken := 0, damagedFrames := 0, lostReturns := 0, staleReturns := 0, map := [], passSeq := 0, spurOut := [],
          lineOut := [] }
    ∧ State.reset.mgmt = { answer := none, refused := 0 }
    ∧ State.reset.pending = []

/-- R2, R169: POWER_ON_RESET samples the pins, empties the frame-in-flight record, and gives every block its reset values. The
output lists are kept (log 4); the pass sequence is the model's own (log 8). -/
def Obligations.PowerOnResetGivesTheResetValues : Prop :=
  ∀ (pins : BitVec 6) (stop : Bool) (s : State), ∃ t : State,
    exec (.powerOnReset pins stop) s = .next t
      ∧ t.atResetValues
      ∧ t.ring =
          { address := pins, inReset := false, stopPin := stop, headerHalt := false, inFlight := none, losses := 0,
            lossLimit := 3, framesTaken := 0, damagedFrames := 0, lostReturns := 0, staleReturns := 0, map := [],
            passSeq := 0, spurOut := s.ring.spurOut, lineOut := s.ring.lineOut }
      ∧ t.mgmt = { answer := none, refused := 0 }
      ∧ t.pending = s.pending

/-- R169: STATION RESET gives the same values, but keeps the station address and the frame-in-flight record, and its answer DONE
is held. The output lists and the pass sequence are kept (log 4, log 8). -/
def Obligations.StationResetKeepsAddressAndFrameInFlight : Prop :=
  ∀ s : State, s.ring.active = true → ∃ t : State,
    exec .stationReset s = .next t
      ∧ t.atResetValues
      ∧ t.ring =
          { address := s.ring.address, inReset := s.ring.inReset, stopPin := s.ring.stopPin, headerHalt := false,
            inFlight := s.ring.inFlight, losses := 0, lossLimit := 3, framesTaken := 0, damagedFrames := 0, lostReturns := 0,
            staleReturns := 0, map := [], passSeq := s.ring.passSeq, spurOut := s.ring.spurOut, lineOut := s.ring.lineOut }
      ∧ t.mgmt = { answer := some (.done []), refused := 0 }
      ∧ t.pending = s.pending

/-- R2, R169: the RESET pin is asserted; from then on no frame is taken or forwarded. What the part's other state does while the pin
is asserted is the model's choice: it stands until the power-on reset at the release (log 19). A part in reset, and a transparent one,
take no request and no TOOL return; that a STOP change there only records the level is the model's choice (log 6). A request and a
limit row are the commands of log 1 and log 7. -/
def Obligations.AssertedResetTakesNothing : Prop :=
  ∀ s : State,
    exec .resetPinAssert s = .next { s with ring := { s.ring with inReset := true } }
      ∧ (s.ring.inReset = true →
          ∀ frame edges, exec (.outboundPass frame edges) s = .next (State.afterEdges edges s)
            ∧ exec (.returnPass frame edges) s = .next (State.afterEdges edges s))
      ∧ (s.ring.inReset = true ∨ s.ring.address = 0 ∨ s.ring.address = 63 →
          (∀ h spindle actual atHome present force,
              exec (.spinUpLimit h spindle) s = .next s ∧ exec (.toolNotHome h actual atHome) s = .next s
                ∧ exec (.rivetFeedLimit h present) s = .next s ∧ exec (.dwellComplete h force) s = .next s)
            ∧ (∀ c : Instr, c.isRequest = true → exec c s = .next s)
            ∧ (∀ b, exec (.stopPinChange b) s = .next { s with ring := { s.ring with stopPin := b } }))

/-- R64, R151, R152: what a halt that becomes present makes of a head. The halt is present while the header-halt flag is set or STOP
is asserted. -/
def Obligations.StopPinChangeBringsTheHalt : Prop :=
  (∀ (b : Bool) (s : State), s.ring.active = true →
    ((s.ring.halt = true ∨ b = false) →
        exec (.stopPinChange b) s = .next { s with ring := { s.ring with stopPin := b } })
      ∧ (s.ring.halt = false → b = true → ∃ t : State,
          exec (.stopPinChange b) s = .next t
            ∧ t.ring = { s.ring with stopPin := true }
            ∧ t.faults = s.faults.raise .halt
            ∧ (∀ h : HeadNo, t.head h =
                match (s.head h).state with
                | .idle | .seeking => { s.head h with state := .halted }
                | .settling | .armed => { s.head h with claim := none, settle := 0, state := .halted }
                | .engaged | .frozen =>
                  { s.head h with
                    state := .retracting
                    engine := (s.head h).engine.map fun c =>
                      ({ c with decision := some (.interrupted, .halt) } : Cycle).rampedRetract }
                | .offline | .retracting | .halted | .fault => s.head h)
            ∧ (∀ i : Nat, t.hole i =
                if (allFour.any fun h => ((s.head h).state == .settling || (s.head h).state == .armed)
                      && (s.head h).claim.any fun c => c.hole == i) = true then
                  (s.hole i).map fun v => { v with claimant := none }
                else s.hole i)
            ∧ t.table = { s.table with holes := t.table.holes }
            ∧ t.correction = s.correction ∧ t.keepOut = s.keepOut ∧ t.profiles = s.profiles ∧ t.results = s.results
            ∧ t.mgmt = s.mgmt ∧ t.pending = s.pending))
    ∧ ∀ r : Ring, r.halt = true ↔ r.headerHalt = true ∨ r.stopPin = true

/-! ## The ring -/

/-- R1, R2, R9, R6: what is forwarded unchanged: every frame of a transparent part, every frame whose kind is not CYCLE, and a
stale return, which is counted. A part is transparent at the addresses 0 and 63. The STOP edges of such a pass fall after the frame has been forwarded (the model's choice, log 3),
and in a transparent part they only record the level (the model's choice, log 6). -/
def Obligations.FramesForwardedUnchanged : Prop :=
  (∀ (frame : List Byte) (edges : List StopEdge) (s : State), s.ring.inReset = false →
    ((s.ring.transparent = true ∨ classify frame = .other) →
        exec (.outboundPass frame edges) s
            = .next (State.afterEdges edges { s with ring := { s.ring with spurOut := s.ring.spurOut ++ [frame] } })
          ∧ exec (.returnPass frame edges) s
            = .next (State.afterEdges edges { s with ring := { s.ring with lineOut := s.ring.lineOut ++ [frame] } }))
      ∧ (s.ring.transparent = false → ∀ f, classify frame = .cycle f → s.ring.inFlight ≠ some f.seq →
          exec (.returnPass frame edges) s
            = .next (State.afterEdges edges
                { s with
                  ring := { s.ring with
                            staleReturns := satInc s.ring.staleReturns, lineOut := s.ring.lineOut ++ [frame] } })))
    ∧ (∀ r : Ring, (r.transparent = true ↔ r.address = 0 ∨ r.address = 63)
        ∧ (r.active = true ↔ r.inReset = false ∧ r.transparent = false))

/-- R3, R4, R5, R10: a damaged frame is counted, FRAME_DAMAGED raised, and the frame forwarded unchanged; on SPUR IN, while the
record holds a sequence, it also declares the frame in flight lost. What arrives is damaged when it has fewer than 13 or more than
1,500 bytes, fails its check, or has another frame length field; else a frame of another kind is other; else a CYCLE frame with
section count 0 or above 48, with an id 0 or 255, or whose walk does not add up is damaged, and the sound CYCLE frames are exactly
those that are taken, each as the frame whose bytes arrived. The check is the stored four bytes against the complemented, reflected
CRC-32 of the bytes before them. The STOP edges of the pass fall after the frame has been forwarded
(the model's choice, log 3), and the lost frame's sequence becomes the pass sequence (the model's own field, log 8). -/
def Obligations.DamagedFrameCountedAndForwarded : Prop :=
  (∀ (frame : List Byte) (edges : List StopEdge) (s : State), s.ring.active = true → classify frame = .damaged →
    exec (.outboundPass frame edges) s
        = .next (State.afterEdges edges
            { s with
              ring := { s.ring with
                        damagedFrames := satInc s.ring.damagedFrames, spurOut := s.ring.spurOut ++ [frame] }
              faults := s.faults.raise .frameDamaged })
      ∧ (s.ring.inFlight = none →
          exec (.returnPass frame edges) s
            = .next (State.afterEdges edges
                { s with
                  ring := { s.ring with
                            damagedFrames := satInc s.ring.damagedFrames, lineOut := s.ring.lineOut ++ [frame] }
                  faults := s.faults.raise .frameDamaged }))
      ∧ (∀ (q : Half) (d : Station), s.ring.inFlight = some q →
          d = Station.declareLost { s.toStation with ring := { s.ring with inFlight := none, passSeq := q } } →
          exec (.returnPass frame edges) s
            = .next (State.afterEdges edges
                { s with
                  toStation :=
                    { d with
                      ring := { d.ring with
                                damagedFrames := satInc d.ring.damagedFrames, lineOut := d.ring.lineOut ++ [frame] }
                      faults := d.faults.raise .frameDamaged } })))
    ∧ (∀ b : List Byte,
        ((b.length < 13 ∨ 1500 < b.length ∨ checkPasses b = false ∨ (halfAt b 4).toNat ≠ b.length) → classify b = .damaged)
          ∧ (13 ≤ b.length → b.length ≤ 1500 → checkPasses b = true → (halfAt b 4).toNat = b.length → byteAt b 0 ≠ 0x01 →
            classify b = .other)
          ∧ (byteAt b 0 = 0x01 → (byteAt b 6 = 0 ∨ 48 < (byteAt b 6).toNat) → classify b = .damaged)
          ∧ (byteAt b 0 = 0x01 → (∀ f : Frame, f.sound → f.bytes ≠ b) → classify b = .damaged)
          ∧ (∀ f : Frame, classify b = .cycle f ↔ f.sound ∧ f.bytes = b)
          ∧ (classify b = .other → byteAt b 0 ≠ 0x01))
    ∧ (∀ f : Frame, f.header.length = 7 → byteAt f.header 0 = 0x01 →
        (∀ x ∈ f.sections, x.id ≤ 255 ∧ x.payload.length ≤ 255) →
          ((∃ x ∈ f.sections, x.id = 0 ∨ x.id = 255) → classify f.bytes = .damaged)
            ∧ ((byteAt f.header 6).toNat ≠ f.sections.length → classify f.bytes = .damaged))
    ∧ (∀ b : List Byte, 4 ≤ b.length →
        (checkPasses b = true ↔ wordAt b (b.length - 4) = crc32 (b.take (b.length - 4))))
    ∧ (∀ b : List Byte,
        crc32 b
          = ~~~(b.foldl
              (fun (r : Word) (x : Byte) =>
                (List.range 8).foldl
                  (fun (r : Word) _ => if r.getLsbD 0 = true then (r >>> 1) ^^^ (0x04C11DB7 : Word).reverse else r >>> 1)
                  (r ^^^ x.setWidth 32))
              (0xFFFFFFFF : Word)))

/-- R11, R12, R23, R63: a frame declared lost is counted and its answer is gone; at the loss limit every head in service goes to
FAULT with cause SPUR_LOSS, one after the other, no other head changes, and SPUR_LOSS is raised. What FAULT does to a head, its cycle
and its hole is in FaultCauseStopsTheHead. A head is in service in every state but OFFLINE and FAULT; a ring counter saturates at
4,294,967,295. -/
def Obligations.LostFrameCountsAndFaultsAtTheLimit : Prop :=
  (∀ (s t : Station), t = s.declareLost →
    t.ring = { s.ring with lostReturns := satInc s.ring.lostReturns, losses := min (s.ring.losses + 1) 255 }
      ∧ t.mgmt = { s.mgmt with answer := none }
      ∧ t.profiles = s.profiles ∧ t.correction = s.correction ∧ t.keepOut = s.keepOut
      ∧ (min (s.ring.losses + 1) 255 < s.ring.lossLimit →
          t.heads = s.heads ∧ t.table = s.table ∧ t.results = s.results ∧ t.faults = s.faults)
      ∧ (s.ring.lossLimit ≤ min (s.ring.losses + 1) 255 →
          t.faults.raw.getLsbD FaultKind.spurLoss.number = true
            ∧ ∀ h : HeadNo,
                ((s.head h).state.inService = false → t.head h = s.head h)
                  ∧ ((s.head h).state.inService = true →
                      (t.head h).state = .fault ∧ (t.head h).faultCause = some .spurLoss ∧ (t.head h).engine = none
                        ∧ (t.head h).claim = none ∧ (t.head h).settle = 0 ∧ (t.head h).gate = (s.head h).gate.fault
                        ∧ t.faults.raw.getLsbD FaultKind.headFault.number = true)))
    ∧ (∀ s counted : Station,
        counted = { s with
                    ring := { s.ring with lostReturns := satInc s.ring.lostReturns, losses := min (s.ring.losses + 1) 255 }
                    mgmt := { s.mgmt with answer := none } } →
          (min (s.ring.losses + 1) 255 < s.ring.lossLimit → s.declareLost = counted)
            ∧ (s.ring.lossLimit ≤ min (s.ring.losses + 1) 255 →
              s.declareLost = (allFour.foldl (fun u h => u.toFault h .spurLoss) counted).raise .spurLoss))
    ∧ (∀ st : HeadState, st.inService = true ↔ st ≠ .offline ∧ st ≠ .fault)
    ∧ (∀ c : Word, (satInc c).toNat = min (c.toNat + 1) 4294967295)

/-- R6, R7, R8, R14, R16, R23: a CYCLE frame taken on the outbound pass, in its order. The header: the frame is counted, its HALT
flag is the header-halt flag, and a halt that it brings does to the heads what a STOP change that brings one does; a frame in
flight is lost; its sequence is the record's; nothing of this frame has been sent yet. Then the sections, one after the other; then
the missing-section test of each head in turn; then the frame leaves on SPUR OUT with the same header, the same sections by id and
length in the same order, and a fresh check that passes. A request in the frame changes neither the count nor the HALT flag, unless
it is STATION RESET. A frame that carries no request leaves the other blocks' data alone. That an answer still held is dropped by
the header of a new frame is the model's reading (log 27); the pass sequence (log 8) and the places of the STOP edges (log 3) are
the model's choice. -/
def Obligations.OutboundCycleFrameIsTaken : Prop :=
  (∀ (frame : List Byte) (edges : List StopEdge) (f : Frame) (s : State), s.ring.active = true →
      classify frame = .cycle f → ∃ (halted lost header tested : Station) (p : Pass) (t : State),
        exec (.outboundPass frame edges) s = .next t
          ∧ ((s.ring.halt = true ∨ f.halt = false) →
              halted = { s.toStation with
                         ring := { s.ring with
                                   framesTaken := satInc s.ring.framesTaken, passSeq := f.seq, headerHalt := f.halt } })
          ∧ (s.ring.halt = false → f.halt = true → ∃ r : State, exec (.stopPinChange true) s = .next r
              ∧ halted = { r.toStation with
                           ring := { s.ring with
                                     framesTaken := satInc s.ring.framesTaken, passSeq := f.seq, headerHalt := f.halt } })
          ∧ lost = (if s.ring.inFlight = none then halted else halted.declareLost)
          ∧ header = { lost with
                       ring := { lost.ring with inFlight := some f.seq }
                       mgmt := { lost.mgmt with answer := none }
                       heads := lost.heads.map fun w =>
                         { w with
                           gate := { w.gate with sent := none }
                           engine := w.engine.map fun c => { c with sent := none, begun := true, stopped := false } } }
          ∧ p = f.sections.foldl (Pass.section outboundSection)
              { station := header, edges := edges, index := 0, seen := [], taken := [], out := [] }
          ∧ tested = Station.missingTest p.taken 3
              (Station.missingTest p.taken 2 (Station.missingTest p.taken 1 (Station.missingTest p.taken 0 p.station)))
          ∧ t.toStation =
              { tested.stopEdges p.edges with
                ring := { (tested.stopEdges p.edges).ring with
                          spurOut := (tested.stopEdges p.edges).ring.spurOut
                            ++ [({ f with sections := p.out } : Frame).bytes] } }
          ∧ t.ring.spurOut = s.ring.spurOut ++ [({ f with sections := p.out } : Frame).bytes]
          ∧ checkPasses ({ f with sections := p.out } : Frame).bytes = true
          ∧ (p.out.map fun x => (x.id, x.payload.length)) = (f.sections.map fun x => (x.id, x.payload.length))
          ∧ t.ring.lineOut = s.ring.lineOut ∧ t.ring.address = s.ring.address ∧ t.pending = s.pending
          ∧ t.ring.inFlight = some f.seq
          ∧ ((∀ x ∈ f.sections, x.id = 192 + s.ring.address.toNat → decodeRequest x.payload ≠ .request .stationReset) →
              t.ring.framesTaken = satInc s.ring.framesTaken ∧ t.ring.headerHalt = f.halt)
          ∧ ((∀ x ∈ f.sections, x.id ≠ 192 + s.ring.address.toNat) →
              t.ring.map = s.ring.map
                ∧ t.ring.damagedFrames = s.ring.damagedFrames ∧ t.ring.staleReturns = s.ring.staleReturns
                ∧ t.mgmt.refused = s.mgmt.refused ∧ t.mgmt.answer = none
                ∧ t.profiles = s.profiles ∧ t.correction = s.correction ∧ t.keepOut = s.keepOut
                ∧ (s.ring.inFlight = none →
                    t.ring.lostReturns = s.ring.lostReturns ∧ t.ring.losses = s.ring.losses)
                ∧ (∀ q, s.ring.inFlight = some q →
                    t.ring.lostReturns = satInc s.ring.lostReturns ∧ t.ring.losses = min (s.ring.losses + 1) 255)))
    ∧ (∀ (h : HeadNo) (payload : List Byte) (s : Station),
        outboundSection (.role (.carriage h)) payload s = s.carriageOutbound h payload
          ∧ outboundSection (.role (.tool h)) payload s = s.toolOutbound h payload
          ∧ outboundSection (.role .status) payload s = (s, payload)
          ∧ outboundSection (.role .resultSlot) payload s = (s, payload))
    ∧ (∀ (taken : List Role) (h : HeadNo) (s : Station),
        ((s.head h).state.inService = true → (Role.carriage h ∉ taken ∨ Role.tool h ∉ taken) →
            s.missingTest taken h
              = Station.toFault h .sectionMissing { s with faults := s.faults.raise .sectionMissing })
          ∧ (((s.head h).state.inService = false ∨ (Role.carriage h ∈ taken ∧ Role.tool h ∈ taken)) →
            s.missingTest taken h = s))

/-- R6, R9, R15: a return whose sequence is the record's is taken, in its order: the record is emptied and the losses are 0; then the
sections, one after the other; then no answer is held any more, and the frame leaves on LINE OUT with the same header and sections
by id and length, and a fresh check that passes. A CARRIAGE or TOOL section leaves as it came. The pass sequence (log 8) and the
places of the STOP edges (log 3) are the model's choice. -/
def Obligations.MatchingReturnIsTaken : Prop :=
  (∀ (frame : List Byte) (edges : List StopEdge) (f : Frame) (s : State), s.ring.active = true →
      classify frame = .cycle f → s.ring.inFlight = some f.seq → ∃ (done : Station) (p : Pass) (t : State),
        exec (.returnPass frame edges) s = .next t
          ∧ p = f.sections.foldl (Pass.section returnSection)
              { station := { s.toStation with ring := { s.ring with inFlight := none, losses := 0, passSeq := f.seq } }
                edges := edges, index := 0, seen := [], taken := [], out := [] }
          ∧ done = Station.stopEdges p.edges { p.station with mgmt := { p.station.mgmt with answer := none } }
          ∧ t.toStation =
              { done with
                ring := { done.ring with
                          lineOut := done.ring.lineOut ++ [({ f with sections := p.out } : Frame).bytes] } }
          ∧ t.ring.lineOut = s.ring.lineOut ++ [({ f with sections := p.out } : Frame).bytes]
          ∧ checkPasses ({ f with sections := p.out } : Frame).bytes = true
          ∧ (p.out.map fun x => (x.id, x.payload.length)) = (f.sections.map fun x => (x.id, x.payload.length))
          ∧ t.ring.inFlight = none ∧ t.ring.losses = 0 ∧ t.mgmt = { s.mgmt with answer := none }
          ∧ t.ring.spurOut = s.ring.spurOut ∧ t.ring.headerHalt = s.ring.headerHalt ∧ t.ring.map = s.ring.map
          ∧ t.ring.address = s.ring.address ∧ t.ring.lossLimit = s.ring.lossLimit
          ∧ t.ring.framesTaken = s.ring.framesTaken ∧ t.ring.damagedFrames = s.ring.damagedFrames
          ∧ t.ring.lostReturns = s.ring.lostReturns ∧ t.ring.staleReturns = s.ring.staleReturns
          ∧ t.profiles = s.profiles ∧ t.correction = s.correction ∧ t.keepOut = s.keepOut ∧ t.pending = s.pending)
    ∧ (∀ (h : HeadNo) (payload : List Byte) (s : Station),
        returnSection (.role (.carriage h)) payload s = (s.carriageReturn h payload, payload)
          ∧ returnSection (.role (.tool h)) payload s = (s.toolReturn h payload, payload))

/-- R13, R16, R18: one section of a pass. A section whose id went by before, whose id nobody owns, or whose length is not its role's
is forwarded untouched on either pass, and changes nothing. Any other is its owner's: the owner's effect and the payload that it
leaves stand in its place, and a role that was taken is noted for the missing-section test. Before a section the STOP edges placed
before it fall, each as a STOP change of its own (their places are the model's choice, log 3). -/
def Obligations.SectionOutsideTheMapIsUntouched : Prop :=
  (∀ (handle : Owner → List Byte → Station → Station × List Byte) (p : Pass) (x : Sect),
      (x.id ∈ p.seen
          ∨ (x.id ≠ 192 + p.fall.station.ring.address.toNat
              ∧ (∀ e ∈ p.fall.station.ring.map, e.2.id ≠ x.id))
          ∨ (x.id = 192 + p.fall.station.ring.address.toNat ∧ x.payload.length ≠ 80)
          ∨ (x.id ≠ 192 + p.fall.station.ring.address.toNat ∧ ∀ r, p.fall.station.ring.roleOfId x.id = some r →
              x.payload.length ≠ r.length)) →
        (p.section handle x).out = p.out ++ [x]
          ∧ (p.section handle x).station = p.fall.station
          ∧ (p.section handle x).taken = p.taken)
    ∧ (∀ (handle : Owner → List Byte → Station → Station × List Byte) (p : Pass) (x : Sect) (o : Owner), x.id ∉ p.seen →
        ((x.id = 192 + p.fall.station.ring.address.toNat ∧ x.payload.length = 80 ∧ o = .management)
          ∨ (x.id ≠ 192 + p.fall.station.ring.address.toNat ∧ ∃ r, p.fall.station.ring.roleOfId x.id = some r
              ∧ x.payload.length = r.length ∧ o = .role r)) →
          (p.section handle x).station = (handle o x.payload p.fall.station).1
            ∧ (p.section handle x).out = p.out ++ [{ id := x.id, payload := (handle o x.payload p.fall.station).2 }]
            ∧ (p.section handle x).taken = (match o with
              | .management => p.taken
              | .role r => r :: p.taken))
    ∧ (∀ (handle : Owner → List Byte → Station → Station × List Byte) (p : Pass) (x : Sect),
        (p.section handle x).seen = x.id :: p.seen ∧ (p.section handle x).index = p.index + 1
          ∧ (p.section handle x).edges = (p.edges.dropWhile fun e => decide (e.before ≤ p.index))
          ∧ p.fall.station = p.station.stopEdges (p.edges.takeWhile fun e => decide (e.before ≤ p.index)))
    ∧ (∀ (e : StopEdge) (es : List StopEdge) (s : State),
        s.toStation.stopEdges [] = s.toStation
          ∧ ∃ t : State, exec (.stopPinChange e.asserted) s = .next t ∧ s.toStation.stopEdges (e :: es) = t.toStation.stopEdges es)
    ∧ (∀ (r : Ring) (id : Nat) (role : Role), mapLegal r.map →
        (r.roleOfId id = some role ↔ ∃ e ∈ r.map, e.2 = { id := id, role := role }))
    ∧ (∀ h : HeadNo, (Role.carriage h).length = 18 ∧ (Role.tool h).length = 20 ∧ Role.status.length = 32
        ∧ Role.resultSlot.length = 48)

/-- R162: this station's MGMT section, taken on the outbound pass, does what the request taken as a command does; kind 00h does
nothing, and a kind outside the code table is refused UNKNOWN. The payload leaves as it came. -/
def Obligations.ManagementSectionRunsTheRequest : Prop :=
  ∀ (payload : List Byte) (s : State), s.ring.active = true →
    (outboundSection .management payload s.toStation).2 = payload
      ∧ (∀ i : Instr, decodeRequest payload = .request i →
          i.isRequest = true
            ∧ exec i s = .next { s with toStation := (outboundSection .management payload s.toStation).1 })
      ∧ (decodeRequest payload = .empty → (outboundSection .management payload s.toStation).1 = s.toStation)
      ∧ (decodeRequest payload = .unknown →
          (outboundSection .management payload s.toStation).1 = (s.refusedWith .unknown).toStation)

/-- R162: on the return, the held answer is written at offset 2, its reason at offset 3 and its data from offset 4, followed by
00h; the kind and the tag stay. With no answer held, the payload leaves as it came. -/
def Obligations.HeldAnswerIsWritten : Prop :=
  ∀ (payload : List Byte) (s : Station), payload.length = 80 →
    (s.mgmt.answer = none → returnSection .management payload s = (s, payload))
      ∧ (∀ data, data.length ≤ 76 → s.mgmt.answer = some (.done data) →
          returnSection .management payload s
            = (s, payload.take 2 ++ [0x01, 0x00] ++ data ++ List.replicate (76 - data.length) 0x00))
      ∧ (∀ data, data.length ≤ 76 → s.mgmt.answer = some (.clamped data) →
          returnSection .management payload s
            = (s, payload.take 2 ++ [0x02, 0x00] ++ data ++ List.replicate (76 - data.length) 0x00))
      ∧ (∀ why, s.mgmt.answer = some (.refused why) →
          returnSection .management payload s
            = (s, payload.take 2 ++ [0x03, why.code] ++ List.replicate 76 0x00))

/-- R164, R24: a STATUS section taken on a return shows the station as it stands, in 32 bytes. -/
def Obligations.StatusSectionShowsTheStation : Prop :=
  ∀ (payload : List Byte) (s : Station) (out : List Byte), out = (returnSection (.role .status) payload s).2 →
    (returnSection (.role .status) payload s).1 = s
      ∧ out.length = 32
      ∧ byteAt out 0 = s.table.jig.code
      ∧ (byteAt out 1).toNat = s.ring.address.toNat
      ∧ wordAt out 2 = s.table.jigId
      ∧ ((byteAt out 6).getLsbD 0 = s.ring.halt ∧ (byteAt out 6).getLsbD 1 = s.faults.attention
          ∧ (byteAt out 6).getLsbD 2 = decide (s.faults.raw &&& s.faults.enable ≠ 0)
          ∧ (byteAt out 6).getLsbD 3 = s.results.hold ∧ (byteAt out 6).toNat < 16)
      ∧ byteAt out 7 = BitVec.ofNat 8 s.results.records.length
      ∧ ∀ h : HeadNo,
          byteAt out (8 + 6 * h.val) = (s.head h).state.code
            ∧ byteAt out (9 + 6 * h.val) = stageCode (s.head h).engine
            ∧ halfAt out (10 + 6 * h.val)
                = (match (s.head h).claim with
                  | some c => BitVec.ofNat 16 c.hole
                  | none => 0xFFFF)
            ∧ byteAt out (12 + 6 * h.val) = BitVec.ofNat 8 (s.head h).queue.length
            ∧ byteAt out (13 + 6 * h.val) = (s.head h).gate.state.code

/-- R156: a RESULT_SLOT section taken on a return takes the oldest record when FILLED is clear, and the hold test is made; a slot
with FILLED set, or met by an empty queue, is left as it came. -/
def Obligations.ResultSlotTakesTheOldestRecord : Prop :=
  ∀ (payload : List Byte) (s : Station),
    ((byteAt payload 0 ≠ 0 ∨ s.results.records = []) →
        returnSection (.role .resultSlot) payload s = (s, payload))
      ∧ (∀ r rest, byteAt payload 0 = 0 → s.results.records = r :: rest →
          (returnSection (.role .resultSlot) payload s).1
              = Station.holdTest { s with results := { s.results with records := rest } }
            ∧ (returnSection (.role .resultSlot) payload s).2 = 0x01 :: r.bytes
            ∧ (0x01 :: r.bytes).length = 48)

/-! ## Gates and heads -/

/-- R14, R81 to R84, R106, R131: what leaves on the outbound pass. A CARRIAGE section, in each state of the gate: the setpoints
pass with GATED clear, or the held position replaces them with GATED set; every other byte stays, and nothing but this head's
gate changes. A TOOL section: OFF and zeros with no cycle in flight, or with one that began on this very pass; else the pending
setpoint, which becomes the sent one, and the frame counts. -/
def Obligations.OutboundSetpointsOfCarriageAndTool : Prop :=
  (∀ (h : HeadNo) (payload : List Byte) (s : Station) (sp : Spot) (g : Gate), payload.length = 18 →
      sp = { x := (wordAt payload 0).toInt, t := (wordAt payload 4).toInt } → g = (s.head h).gate →
        (g.state = .opened →
            s.carriageOutbound h payload
              = (s.setHead h { s.head h with gate := { g with passed := some sp, sent := some sp } }, payload.set 16 0x00))
          ∧ (∀ p, g.state = .held → g.held = some p →
            s.carriageOutbound h payload
              = (s.setHead h { s.head h with gate := { g with sent := some p } },
                 um p.x ++ um p.t ++ (payload.drop 8).take 8 ++ [0x01] ++ payload.drop 17))
          ∧ (∀ p, g.state = .rejoin → g.held = some p →
            ((sp.x - p.x).natAbs ≤ (s.head h).cfg.settleBand ∧ (sp.t - p.t).natAbs ≤ (s.head h).cfg.settleBand →
                s.carriageOutbound h payload
                  = (s.setHead h
                      { s.head h with gate := { g with state := .opened, held := none, passed := some sp, sent := some sp } },
                     payload.set 16 0x00))
              ∧ (¬ ((sp.x - p.x).natAbs ≤ (s.head h).cfg.settleBand ∧ (sp.t - p.t).natAbs ≤ (s.head h).cfg.settleBand) →
                s.carriageOutbound h payload
                  = (s.setHead h { s.head h with gate := { g with sent := some p } },
                     um p.x ++ um p.t ++ (payload.drop 8).take 8 ++ [0x01] ++ payload.drop 17))))
    ∧ (∀ (h : HeadNo) (payload : List Byte) (s : Station), payload.length = 20 →
        (((s.head h).engine = none ∨ (∃ c, (s.head h).engine = some c ∧ c.begun = false)) →
            s.toolOutbound h payload = (s, List.replicate 8 0x00 ++ payload.drop 8))
          ∧ (∀ c d, (s.head h).engine = some c → c.begun = true → c.work = .drill d →
            s.toolOutbound h payload
              = (s.setHead h
                  { s.head h with engine := some { c with sent := some c.p, frames := min (c.frames + 1) 65535 } },
                 [0x01, 0x01] ++ um c.p ++ u16 d.prof.spindleSpeed ++ payload.drop 8))
          ∧ (∀ c d, (s.head h).engine = some c → c.begun = true → c.work = .set d →
            s.toolOutbound h payload
              = (s.setHead h
                  { s.head h with
                    engine := some { c with
                                     sent := some c.p, frames := min (c.frames + 1) 65535
                                     work := .set { d with deepest := max d.deepest c.p } } },
                 [0x02, 0x00] ++ um c.p ++ [0x00, 0x00] ++ payload.drop 8)))
    ∧ ∀ (h j : HeadNo) (w : Head) (s : Station), (s.setHead h w).head j = if j = h then w else s.head j

/-- R22, R35, R63, R73, R86: a cause reaches a head in service: a cycle in flight ends FAILED with the cause, with one record queued
and the hold test made, its hole REJECTED, its entry out of the queue, an empty bank, and the completeness test made while the jig is
WORKING; the claim is gone and the claimed hole's claimant with it, and every other hole stands; the gate is as R86's table says,
HEAD_FAULT is raised, and the other heads stand. A head OFFLINE or in FAULT does not change. A drive status FAULT (any code above 01h) on a CARRIAGE or TOOL return is recorded; a head in
service then raises DRIVE_FAULT and goes to FAULT, and makes no test and no step on that return. That the gate of a CARRIAGE return
still computes its deviation there is the model's reading (log 20). -/
def Obligations.FaultCauseStopsTheHead : Prop :=
  (∀ (h : HeadNo) (cause : Reason) (s t : Station), t = s.toFault h cause →
      ((s.head h).state.inService = false → t = s)
        ∧ ((s.head h).state.inService = true →
            (t.head h).state = .fault ∧ (t.head h).faultCause = some cause ∧ (t.head h).settle = 0
              ∧ (t.head h).claim = none ∧ (t.head h).engine = none ∧ (t.head h).gate = (s.head h).gate.fault
              ∧ (t.head h).cfg = (s.head h).cfg
              ∧ t.faults.raw.getLsbD FaultKind.headFault.number = true
              ∧ (∀ j : HeadNo, j ≠ h → t.head j = s.head j)
              ∧ t.ring = s.ring ∧ t.profiles = s.profiles ∧ t.correction = s.correction ∧ t.keepOut = s.keepOut
              ∧ t.mgmt = s.mgmt
              ∧ ((s.head h).engine = none →
                  (t.head h).queue = (s.head h).queue ∧ t.results = s.results
                    ∧ t.head h
                      = { s.head h with
                          claim := none, settle := 0, gate := (s.head h).gate.fault, state := .fault, faultCause := some cause }
                    ∧ t.faults = s.faults.raise .headFault
                    ∧ ((s.head h).claim = none → t.table = s.table)
                    ∧ (∀ a, (s.head h).claim = some a →
                      t.table = { s.table with holes := t.table.holes }
                        ∧ (∀ i, i ≠ a.hole → t.hole i = s.hole i)
                        ∧ t.hole a.hole = (s.hole a.hole).map fun v => { v with claimant := none }))
              ∧ (∀ c, (s.head h).engine = some c →
                  (t.head h).queue = (s.head h).queue.erase c.hole
                    ∧ t.faults.raw.getLsbD FaultKind.cycleFailed.number = true
                    ∧ t.results.records = s.results.records ++ [s.cycleRecord h c .failed cause]
                    ∧ t.head h
                      = { s.head h with
                          claim := none, settle := 0, gate := (s.head h).gate.fault, state := .fault, faultCause := some cause
                          queue := (s.head h).queue.erase c.hole, engine := none
                          bank := { live := [], latch := none, notes := 0, ease := none } }
                    ∧ (∀ v, s.hole c.hole = some v →
                      t.hole c.hole = some { v with state := .rejected, claimant := none, last := some (.failed, cause) })
                    ∧ (∀ i, i ≠ c.hole → (∀ a, (s.head h).claim = some a → a.hole ≠ i) → t.hole i = s.hole i)
                    ∧ t.table.jig = s.table.jig ∧ t.table.jigId = s.table.jigId ∧ t.table.halfA = s.table.halfA
                    ∧ t.table.complete
                        = (s.table.complete || (s.table.jig == .working && t.table.holes.all fun e => e.2.terminal))
                    ∧ t.results.upper = s.results.upper ∧ t.results.lower = s.results.lower)
              ∧ (∀ c n joined told, (s.head h).engine = some c → n = s.results.records.length + 1 →
                joined = (if s.results.hold = false ∧ s.results.upper ≤ n then s.faults.raise .resultHold else s.faults) →
                told = joined.raise .cycleFailed →
                  t.results.hold = (if s.results.hold then decide (s.results.lower < n) else decide (s.results.upper ≤ n))
                    ∧ t.faults = (if s.table.jig = .working ∧ s.table.complete = false
                        ∧ (t.table.holes.all fun e => e.2.terminal) = true then told.raise .jigComplete else told).raise
                          .headFault)))
    ∧ (∀ g : Gate, g.fault = (match g.state, g.passed with
        | .opened, none => g
        | .opened, some sp => { g with state := .held, held := some sp }
        | .held, _ => g
        | .rejoin, _ => { g with state := .held }))
    ∧ (∀ (h : HeadNo) (payload : List Byte) (s u : Station) (w : Head) (actual : Spot), w = s.head h →
        1 < (byteAt payload 17).toNat →
        actual = { x := (wordAt payload 8).toInt, t := (wordAt payload 12).toInt } →
          (w.state.inService = false →
              s.carriageReturn h payload
                = s.setHead h { w with carriageStatus := .fault, gate := w.gate.returned actual })
            ∧ (w.state.inService = true →
              u = Station.toFault h .driveFault
                (Station.raise .driveFault (s.setHead h { w with carriageStatus := .fault })) →
                s.carriageReturn h payload = u.setHead h { u.head h with gate := (u.head h).gate.returned actual }))
    ∧ (∀ (h : HeadNo) (payload : List Byte) (s : Station) (w : Head), w = s.head h →
        1 < (byteAt payload 18).toNat →
          (w.state.inService = false → s.toolReturn h payload = s.setHead h { w with toolStatus := .fault })
            ∧ (w.state.inService = true →
              s.toolReturn h payload
                = Station.toFault h .driveFault (Station.raise .driveFault (s.setHead h { w with toolStatus := .fault }))))

/-- R36, R77, R85, R103, R105, R130, R143: engagement on a claimed hole whose needed profile is of the head's kind: the gate is HELD
at the last passed setpoints, the hole is DRILLING or SETTING, the cycle begins in RUN at depth 0 and speed 0 with the profile's
values, nothing sent, every count and peak 0 and no outcome, and the bank holds a copy of every written comparator with its number,
its count 0 and its mark clear, no latch, no notes and no ease. That a setting cycle begins with no spindle actual recorded is the
model's choice (log 29), and that its spindle-ready mark begins clear and its over-torque returns 0 is the model's inference (log 30). -/
def Obligations.EngagementBeginsTheCycle : Prop :=
  ∀ (h : HeadNo) (i : Nat) (x : Int) (v : Hole) (n : Nat) (q : Profile) (s : Station),
    (s.head h).claim = some { hole := i, claimX := x } → s.hole i = some v → s.profile n = some q →
      (∀ f layers, (s.head h).cfg.kind = .drill → v.drill = some n → q.body = .drill f layers →
          s.engage h
            = (s.putHole i { v with state := .drilling }).setHead h
                { s.head h with
                  state := .engaged
                  gate := { (s.head h).gate with state := .held, held := (s.head h).gate.passed, holdDistance := 0 }
                  engine := some
                    { hole := i, phase := .run, p := 0, s := 0, stopBound := 0, sent := none, frames := 0, peakForce := 0
                      homeWait := 0, decision := none, begun := false, stopped := false
                      work := .drill
                        { prof := f, layers := layers.map Prod.snd, surface := v.depth, stage := .approach,
                          spindleReady := false, contactCount := 0, breakthroughCount := 0, torqueCount := 0, contact := none,
                          layerEnd := none, breakthrough := none, peckDepth := none, pecks := 0, peckLayer := none,
                          peakTorque := 0, overTorque := 0 } }
                  bank :=
                    { live := q.comparators.map fun e => { slot := e.1, record := e.2, count := 0, fired := false }
                      latch := none, notes := 0, ease := none } })
        ∧ (∀ f, (s.head h).cfg.kind = .set → v.set = some n → q.body = .set f →
          s.engage h
            = (s.putHole i
                { v with state := .setting, entry := some (if v.state = .suspect then .suspect else .drilled) }).setHead h
                { s.head h with
                  state := .engaged
                  gate := { (s.head h).gate with state := .held, held := (s.head h).gate.passed, holdDistance := 0 }
                  engine := some
                    { hole := i, phase := .run, p := 0, s := 0, stopBound := 0, sent := none, frames := 0, peakForce := 0
                      homeWait := 0, decision := none, begun := false, stopped := false
                      work := .set
                        { prof := f, expected := v.stroke
                          gripComp := match v.measured with
                            | none => 0
                            | some m => max (-2000) (min 2000 (f.nominalGrip - m.grip))
                          stage := .feedWait, spindleReady := false, contactCount := 0, forceCount := 0, dwellCount := 0,
                          contact := none, setStroke := none, deepest := 0, overTorque := 0, spindleActual := none } }
                  bank :=
                    { live := q.comparators.map fun e => { slot := e.1, record := e.2, count := 0, fired := false }
                      latch := none, notes := 0, ease := none } })

/-- R73, R79: the arbiter's answer to a head that asks for a hole, by the conditions in their order; only a grant moves the head,
and only BUSY and KEEP_OUT leave the last refusal. -/
def Obligations.ArbiterAnswersInOrder : Prop :=
  ∀ (h : HeadNo) (i : Nat) (v : Hole) (s : Station) (x : Int), x = (s.correctedPosition v).x →
    s.claimRequest h i v =
      if s.ring.halt = true then s
      else if v.claimant.isSome = true then s.setHead h { s.head h with lastRefusal := .busy }
      else if ∃ j : HeadNo, j ≠ h ∧ (s.head j).cfg.group = (s.head h).cfg.group
          ∧ (s.head j).claim.any (fun c => decide (((c.claimX - x).natAbs : Int) < s.keepOut.get (s.head h).cfg.group)) = true then
        s.setHead h { s.head h with lastRefusal := .keepOut }
      else
        (s.putHole i { v with claimant := some h }).setHead h
          { s.head h with
            state := .settling, settle := 0, lastRefusal := .none, claim := some { hole := i, claimX := x } }

/-- R75, R76, R89, R90, R91, R113, R15: a CARRIAGE return. The gate: the deviation from what was sent, and in HELD the hold
distance, the larger of the two distances from the held position. Then the head by its state: SEEKING evaluates its queue; SETTLING
and ARMED make their tests of the claimed hole; ENGAGED and FROZEN make the shift test, by which a carriage further than the shift
limit from its held position ends in an immediate stop, FAILED with reason SHIFT; any other head does nothing more. The tests of a
SETTLING head: the window lost, the settle test failed, the counter rising, and what the settle count brings in either start mode. -/
def Obligations.SettlingHeadTestsItsReturn : Prop :=
  (∀ (h : HeadNo) (actual : Spot) (i : Nat) (x : Int) (v : Hole) (s : Station) (w : Head) (d : Spot) (inside quiet : Prop),
      w = s.head h → w.claim = some { hole := i, claimX := x } → s.hole i = some v → w.gate.deviation = some d →
      (inside ↔ ((actual.x + w.cfg.offsetX - (s.correctedPosition v).x).natAbs : Int) ≤ w.cfg.window
          ∧ ((actual.t + w.cfg.offsetT - (s.correctedPosition v).t).natAbs : Int) ≤ w.cfg.window) →
      (quiet ↔ (d.x.natAbs : Int) ≤ w.cfg.settleBand ∧ (d.t.natAbs : Int) ≤ w.cfg.settleBand) →
        (¬ inside →
            s.settleReturn h actual i v
              = (s.putHole i { v with claimant := none }).setHead h
                  { w with claim := none, settle := 0, state := if s.ring.halt then .halted else .seeking })
          ∧ (inside → ¬ quiet → s.settleReturn h actual i v = s.setHead h { w with settle := 0 })
          ∧ (inside → quiet → w.settle + 1 < w.cfg.settleCount →
            s.settleReturn h actual i v = s.setHead h { w with settle := w.settle + 1 })
          ∧ (inside → quiet → w.cfg.settleCount ≤ w.settle + 1 → w.cfg.startMode = .explicit →
            s.settleReturn h actual i v = s.setHead h { w with settle := w.settle + 1, state := .armed })
          ∧ (inside → quiet → w.cfg.settleCount ≤ w.settle + 1 → w.cfg.startMode = .auto →
            s.settleReturn h actual i v = (s.setHead h { w with settle := w.settle + 1 }).engage h))
    ∧ (∀ (g : Gate) (actual : Spot),
        (g.sent = none → (g.returned actual).deviation = g.deviation)
          ∧ (∀ sp, g.sent = some sp →
              (g.returned actual).deviation = some { x := sp.x - actual.x, t := sp.t - actual.t })
          ∧ (∀ sp, g.state = .held → g.held = some sp →
              (g.returned actual).holdDistance = max ((sp.x - actual.x).natAbs : Int) ((sp.t - actual.t).natAbs : Int))
          ∧ (g.state ≠ .held → (g.returned actual).holdDistance = g.holdDistance)
          ∧ (g.returned actual).state = g.state ∧ (g.returned actual).passed = g.passed ∧ (g.returned actual).held = g.held
          ∧ (g.returned actual).sent = g.sent)
    ∧ (∀ (h : HeadNo) (payload : List Byte) (s u : Station) (w : Head) (actual : Spot) (st : DriveStatus), w = s.head h →
        actual = { x := (wordAt payload 8).toInt, t := (wordAt payload 12).toInt } →
        ((byteAt payload 17 = 0 ∧ st = .ready) ∨ (byteAt payload 17 = 1 ∧ st = .notReady)) →
        u = s.setHead h { w with carriageStatus := st, gate := w.gate.returned actual } →
          (w.state = .seeking → s.carriageReturn h payload = u.evaluate h actual)
            ∧ (∀ i x v, w.state = .settling → w.claim = some { hole := i, claimX := x } → s.hole i = some v →
              s.carriageReturn h payload = u.settleReturn h actual i v)
            ∧ (∀ i x v (inside : Prop), w.state = .armed → w.claim = some { hole := i, claimX := x } → s.hole i = some v →
              (inside ↔ ((actual.x + w.cfg.offsetX - (s.correctedPosition v).x).natAbs : Int) ≤ w.cfg.window
                ∧ ((actual.t + w.cfg.offsetT - (s.correctedPosition v).t).natAbs : Int) ≤ w.cfg.window) →
                (inside → s.carriageReturn h payload = u)
                  ∧ (¬ inside →
                    s.carriageReturn h payload
                      = (u.putHole i { v with claimant := none }).setHead h
                          { u.head h with
                            claim := none, settle := 0, state := if s.ring.halt then .halted else .seeking }))
            ∧ (∀ p, (w.state = .engaged ∨ w.state = .frozen) → w.gate.held = some p →
              (w.cfg.shiftLimit < max ((p.x - actual.x).natAbs : Int) ((p.t - actual.t).natAbs : Int) →
                  s.carriageReturn h payload
                    = u.setHead h
                        { u.head h with
                          state := .retracting
                          engine := w.engine.map fun c =>
                            { c with
                              decision := some (.failed, .shift), phase := .run, p := c.sent.getD c.p, s := 0
                              stopped := true, work := c.work.toRetract } })
                ∧ (max ((p.x - actual.x).natAbs : Int) ((p.t - actual.t).natAbs : Int) ≤ w.cfg.shiftLimit →
                  s.carriageReturn h payload = u))
            ∧ ((w.state = .offline ∨ w.state = .idle ∨ w.state = .retracting ∨ w.state = .halted ∨ w.state = .fault) →
              s.carriageReturn h payload = u))

/-- R69 to R72, R79, R102: one evaluation of a queue head. None while the release hold is set or the queue is empty. The stale
tests in their order: the first that is met gives the reason, and a LOADING profile makes the head wait. A stale entry leaves the
queue with a NOT_DONE record of its hole and reason, and STALE_ASSIGNMENT is raised; a SEEKING head left with an empty queue goes to
IDLE (HALTED under the halt, R64). An entry that passes waits while the gate is not OPEN or the tool centre is outside the window
around the corrected position, and else the hole is asked for. -/
def Obligations.StaleTestsInOrder : Prop :=
  (∀ (v : Hole) (q : Option Profile),
      staleTests .drill v q =
        if v.state ≠ .pending then .discard .state
        else match q with
          | none => .discard .profile
          | some q => match q.state, q.body with
            | .invalid _, _ => .discard .profile
            | .loading, _ => .wait
            | .valid, .set _ => .discard .profile
            | .valid, .drill f layers =>
              if v.depth < f.clearance
                  ∨ 250000 < v.depth + f.contactWindow + (layers.map fun e => e.2.thickness).sum + f.lateLimit + f.overtravel
              then .discard .limit else .passed)
    ∧ (∀ (v : Hole) (q : Option Profile),
      staleTests .set v q =
        if v.state ≠ .drilled ∧ v.state ≠ .suspect then .discard .state
        else match q with
          | none => .discard .profile
          | some q => match q.state, q.body with
            | .invalid _, _ => .discard .profile
            | .loading, _ => .wait
            | .valid, .drill _ _ => .discard .profile
            | .valid, .set f =>
              if v.state = .suspect ∧ f.acceptSuspect = false then .discard .state
              else if v.stroke - f.gripWindow - f.clearance < 0 ∨ 80000 < v.stroke + f.gripWindow + f.formedMax + 2000
              then .discard .limit else .passed)
    ∧ (∀ (h : HeadNo) (actual : Spot) (s : Station) (w : Head), w = s.head h →
        ((s.results.hold = true ∨ w.queue = []) → s.evaluate h actual = s)
          ∧ (∀ i rest v look (inside : Prop), s.results.hold = false → w.queue = i :: rest → s.hole i = some v →
            look = staleTests w.cfg.kind v
              ((match w.cfg.kind with
                | .drill => v.drill
                | .set => v.set).bind s.profile) →
            (inside ↔ ((actual.x + w.cfg.offsetX - (s.correctedPosition v).x).natAbs : Int) ≤ w.cfg.window
              ∧ ((actual.t + w.cfg.offsetT - (s.correctedPosition v).t).natAbs : Int) ≤ w.cfg.window) →
              (∀ why, look = .discard why →
                  s.evaluate h actual
                    = { s.setHead h
                          { w with
                            queue := rest
                            state := if w.state = .seeking ∧ rest = [] then (if s.ring.halt then .halted else .idle)
                              else w.state } with
                        results :=
                          { s.results with
                            hold := decide (s.results.upper ≤ s.results.records.length + 1)
                            records := s.results.records ++
                              [{ jigId := s.table.jigId, hole := i, head := h, operation := .none, outcome := .notDone,
                                 reason := why, attempt := v.attempts + 1, sequence := s.ring.passSeq, notes := 0
                                 latch := none, group := .none }] }
                        faults := (if s.results.upper ≤ s.results.records.length + 1 then s.faults.raise .resultHold
                          else s.faults).raise .staleAssignment })
                ∧ (look = .wait → s.evaluate h actual = s)
                ∧ (look = .passed → (w.gate.state ≠ .opened ∨ ¬ inside) → s.evaluate h actual = s)
                ∧ (look = .passed → w.gate.state = .opened → inside → s.evaluate h actual = s.claimRequest h i v)))

/-- R37 to R41, R44, R78, R87, R128, R142, R143, R155, R158: a cycle ends confirmed home: the hole takes its outcome, its measured
group, its last outcome and reason and loses its claimant; one record joins, with the fields of R155, and the hold test is made; the
entry leaves the queue, the engine and the bank are empty again, a HELD gate goes to REJOIN, and the head goes on by the halt, the
outcome and its queue; CYCLE_FAILED or CYCLE_ABORTED is raised by the outcome, and JIG_COMPLETE when the completeness test, made
while the jig is WORKING, passes for the first time. -/
def Obligations.CycleEndAppliesTheOutcome : Prop :=
  (∀ (h : HeadNo) (c : Cycle) (o : CycleOutcome) (why : Reason) (x : Int) (v : Hole) (s t : Station),
      t = s.finishCycle h → (s.head h).engine = some c → c.decision = some (o, why) →
      (s.head h).claim = some { hole := c.hole, claimX := x } → s.hole c.hole = some v →
        t.hole c.hole = some (Hole.cycleEnd c o why { v with claimant := none })
          ∧ t.results.records = s.results.records ++ [s.cycleRecord h c o why]
          ∧ (t.head h).claim = none ∧ (t.head h).engine = none ∧ (t.head h).gate = (s.head h).gate.letGo
          ∧ (t.head h).queue = (s.head h).queue.erase c.hole
          ∧ (t.head h).state
              = (if s.ring.halt = true ∨ o = .interrupted then .halted
                 else if (s.head h).queue.erase c.hole = [] then .idle else .seeking)
          ∧ (∀ j : HeadNo, j ≠ h → t.head j = s.head j)
          ∧ (∀ i, i ≠ c.hole → t.hole i = s.hole i)
          ∧ t.ring = s.ring ∧ t.profiles = s.profiles ∧ t.correction = s.correction ∧ t.keepOut = s.keepOut
          ∧ t.mgmt = s.mgmt)
    ∧ (∀ (m : Option Measured) (v : Hole),
        v.drillOutcome .good m = { v with state := .drilled, measured := m }
          ∧ v.drillOutcome .suspect m = { v with state := .suspect, measured := m }
          ∧ v.drillOutcome .failed m = { v with state := .rejected }
          ∧ ∀ o, o = .aborted ∨ o = .interrupted ∨ o = .cancelled →
              v.drillOutcome o m = if v.attempts + 1 < 3 then { v with attempts := v.attempts + 1, state := .pending }
                else { v with attempts := 3, state := .rejected })
    ∧ (∀ (after : Bool) (v : Hole),
        v.setOutcome .good after = { v with state := .set }
          ∧ v.setOutcome .failed after = { v with state := .rejected }
          ∧ ∀ o, o = .aborted ∨ o = .interrupted ∨ o = .cancelled →
              v.setOutcome o after =
                if o ≠ .aborted ∧ after = true then { v with state := .rejected }
                else if v.attempts + 1 < 3 then
                  { v with attempts := v.attempts + 1, state := if v.entry = some .suspect then .suspect else .drilled }
                else { v with attempts := 3, state := .rejected })
    ∧ (∀ (h : HeadNo) (c : Cycle) (o : CycleOutcome) (why : Reason) (x : Int) (v : Hole) (s t : Station) (n : Nat)
        (joined told : FaultUnit),
      t = s.finishCycle h → (s.head h).engine = some c → c.decision = some (o, why) →
      (s.head h).claim = some { hole := c.hole, claimX := x } → s.hole c.hole = some v →
      n = s.results.records.length + 1 →
      joined = (if s.results.hold = false ∧ s.results.upper ≤ n then s.faults.raise .resultHold else s.faults) →
      told = (match o with
        | .failed => joined.raise .cycleFailed
        | .aborted | .interrupted | .cancelled => joined.raise .cycleAborted
        | .good | .suspect | .notDone => joined) →
        (t.head h).bank = { live := [], latch := none, notes := 0, ease := none }
          ∧ (t.head h).gate = (if (s.head h).gate.state = .held then { (s.head h).gate with state := .rejoin }
              else (s.head h).gate)
          ∧ (t.head h).cfg = (s.head h).cfg ∧ (t.head h).settle = (s.head h).settle
          ∧ t.results.upper = s.results.upper ∧ t.results.lower = s.results.lower
          ∧ t.results.hold = (if s.results.hold then decide (s.results.lower < n) else decide (s.results.upper ≤ n))
          ∧ t.table.jig = s.table.jig ∧ t.table.jigId = s.table.jigId ∧ t.table.halfA = s.table.halfA
          ∧ t.table.complete
              = (s.table.complete || (s.table.jig == .working && t.table.holes.all fun e => e.2.terminal))
          ∧ t.faults = (if s.table.jig = .working ∧ s.table.complete = false
              ∧ (t.table.holes.all fun e => e.2.terminal) = true then told.raise .jigComplete else told))
    ∧ (∀ (c : Cycle) (o : CycleOutcome) (why : Reason) (v : Hole),
        (∀ d, c.work = .drill d →
            (∀ pc pb, d.contact = some pc → d.breakthrough = some pb →
                Hole.cycleEnd c o why v
                  = { v.drillOutcome o (some { contact := pc, breakthrough := pb, grip := pb - pc }) with
                      claimant := none, last := some (o, why) })
              ∧ ((d.contact = none ∨ d.breakthrough = none) →
                Hole.cycleEnd c o why v = { v.drillOutcome o none with claimant := none, last := some (o, why) }))
          ∧ (∀ d, c.work = .set d →
              Hole.cycleEnd c o why v
                = { v.setOutcome o d.contact.isSome with claimant := none, last := some (o, why) }))
    ∧ (∀ (h : HeadNo) (c : Cycle) (o : CycleOutcome) (why : Reason) (v : Hole) (s : Station), s.hole c.hole = some v →
        (∀ d, c.work = .drill d →
            s.cycleRecord h c o why
              = { jigId := s.table.jigId, hole := c.hole, head := h, operation := .drill, outcome := o, reason := why
                  attempt := v.attempts + 1, sequence := s.ring.passSeq, notes := (s.head h).bank.notes
                  latch := (s.head h).bank.latch
                  group := .drill
                    { contact := d.contact.getD 0, breakthrough := d.breakthrough.getD 0
                      stack := if d.contact.isSome ∧ d.breakthrough.isSome then d.breakthrough.getD 0 - d.contact.getD 0 else 0
                      peakForce := c.peakForce, peakTorque := d.peakTorque, pecks := d.pecks, overTorque := d.overTorque } })
          ∧ (∀ d, c.work = .set d →
            s.cycleRecord h c o why
              = { jigId := s.table.jigId, hole := c.hole, head := h, operation := .set, outcome := o, reason := why
                  attempt := v.attempts + 1, sequence := s.ring.passSeq, notes := (s.head h).bank.notes
                  latch := (s.head h).bank.latch
                  group := .set
                    { contact := d.contact.getD 0, final := d.deepest
                      formed := if d.contact.isSome ∧ d.setStroke.isSome then d.setStroke.getD 0 - d.contact.getD 0 else 0
                      peakForce := c.peakForce, dwell := d.dwellCount, gripComp := d.gripComp } }))

/-! ## Cycles -/

/-- R108, R109, R110, R112: one step of the ramp generator. The candidate speed goes toward the target, and in RAMP-DOWN toward the
end speed w, by at most the acceleration; in RUN, a candidate above w whose remaining distance is less than D(c, w) plus the ramp
margin sends the stage to RAMP-DOWN, and the step slows by the acceleration instead, not below w. So the speed changes by at most
the acceleration, the boundary is never overrun, the setpoint moves by the new speed or stops at the boundary, and a boundary step
is one that lands on it. D(c, w) is 0 for c at or below w; else, with q the whole number of steps of A in c − w and r what is left,
q × c − A × q(q + 1)/2, plus w if r > 0. A step in STOPPING slows by A, inward, bounded by the old boundary, and ends STOPPING at
speed 0 or at that boundary; a held step slows the same way and keeps its stage and phase. -/
def Obligations.RampStepKeepsSpeedAndBoundary : Prop :=
  ((∀ (a : Int) (l : Leg) (phase : Phase) (p s : Int), 0 ≤ a →
        ((rampStep a l phase p s).s - s).natAbs ≤ a
          ∧ (l.outward = false → (rampStep a l phase p s).p = min (p + (rampStep a l phase p s).s) l.bound)
          ∧ (l.outward = true → (rampStep a l phase p s).p = max (p - (rampStep a l phase p s).s) l.bound)
          ∧ ((rampStep a l phase p s).atBound = true ↔ (rampStep a l phase p s).p = l.bound)
          ∧ (phase ≠ .run → (rampStep a l phase p s).phase = phase)
          ∧ ((rampStep a l phase p s).phase = .run ∨ (rampStep a l phase p s).phase = .rampDown
              ∨ (rampStep a l phase p s).phase = phase)))
    ∧ (∀ (a c w q r : Int), 0 < a →
        (c ≤ w → slowDistance a c w = 0)
          ∧ (w < c → c - w = q * a + r → 0 ≤ r → r < a →
              2 * slowDistance a c w = 2 * q * c - a * (q * (q + 1)) + (if 0 < r then 2 * w else 0)))
    ∧ (∀ (a : Int) (l : Leg) (phase : Phase) (p s w target c remaining : Int),
        w = (if l.endSpeed = 0 then a else l.endSpeed) → target = (if phase = .rampDown then w else l.target) →
        c = (if s < target then min (s + a) target else if target < s then max (s - a) target else s) →
        remaining = (if l.outward then p - c - l.bound else l.bound - (p + c)) →
          ((phase = .run ∧ w < c ∧ remaining < slowDistance a c w + l.margin) →
              (rampStep a l phase p s).s = max (s - a) w ∧ (rampStep a l phase p s).phase = .rampDown)
            ∧ (¬ (phase = .run ∧ w < c ∧ remaining < slowDistance a c w + l.margin) →
              (rampStep a l phase p s).s = c ∧ (rampStep a l phase p s).phase = phase))
    ∧ (∀ (a bound p s c : Int) (phase : Phase), c = max (s - a) 0 →
        (c = 0 → stoppingStep a bound p s = { p := p, s := 0, phase := .run, atBound := false })
          ∧ (c ≠ 0 → bound < p + c → stoppingStep a bound p s = { p := bound, s := 0, phase := .run, atBound := false })
          ∧ (c ≠ 0 → p + c ≤ bound → stoppingStep a bound p s = { p := p + c, s := c, phase := .stopping, atBound := false })
          ∧ (c = 0 → heldStep a bound phase p s = { p := p, s := 0, phase := phase, atBound := false })
          ∧ (c ≠ 0 → heldStep a bound phase p s = { p := min (p + c) bound, s := c, phase := phase, atBound := false }))

/-- R107, R115 to R120, R122 to R125: a cycle return of a drilling cycle. A TOOL return is one while a cycle is in flight whose
setpoint this frame carried; any other only records the drive status. What the return leaves of the cycle, the head state and the
bank is the head's; then the kinds are raised, and a cycle confirmed home ends, or the head goes to FAULT. The order: record,
overload, spindle, the stage's test, the comparators, the step. The record of peaks and over-torque returns; the overload; the
contact and breakthrough detectors, with the count, the recognition with its depths and next stage, and the boundary test of SEEK
and of EXIT; the torque test with its peck or CHIP_PACK; the step, and what a boundary step brings in each stage, the stack outcome
of OVERTRAVEL among them; the stages as legs. The speed of a boundary step stands; PECK_IN at PECK_OUT's boundary and RETRACT at
OVERTRAVEL's make their first step from speed 0 (R110). The model's readings among these clauses: a return whose step an immediate
stop of the CARRIAGE section has taken makes no step of its own and still does all its other work (log 21); the comparators act
before a cycle confirmed home ends (log 12); PECK_OUT always begins in STOPPING (log 24); overload in HOME WAIT gives RETRACT in RUN,
and the home wait count stands (log 11). -/
def Obligations.DrillDetectorsRecogniseAndTimeOut : Prop :=
  (∀ (fb : Feedback) (sent : Int) (w : DrillWork) (r : Run) (n : Nat),
      (n = (if w.prof.contactForce ≤ fb.force then w.contactCount + 1 else 0) →
          (w.prof.contactCount ≤ n →
              r.seekTest fb sent w
                = { r with
                    cyc := { r.cyc with
                             phase := .run
                             work := .drill
                               { w with
                                 contactCount := n, contact := some sent, stage := .cut 1
                                 layerEnd := some (sent + (w.layers.map Layer.thickness).sum) } } })
          ∧ (n < w.prof.contactCount → sent ≠ w.surface + w.prof.contactWindow →
              r.seekTest fb sent w = r.putDrill { w with contactCount := n })
          ∧ (n < w.prof.contactCount → sent = w.surface + w.prof.contactWindow →
              r.seekTest fb sent w
                = { r with
                    state := .retracting
                    cyc := { r.cyc with
                             decision := some (.aborted, .noContact), phase := .run, s := 0
                             work := .drill { w with contactCount := n, torqueCount := 0, stage := .retract } } }))
        ∧ (n = (if fb.force ≤ w.prof.breakthroughForce then w.breakthroughCount + 1 else 0) →
          (w.prof.breakthroughCount ≤ n →
              r.exitTest fb sent w
                = { r with
                    cyc := { r.cyc with
                             phase := .run
                             work := .drill
                               { w with
                                 breakthroughCount := n, torqueCount := 0, breakthrough := some sent
                                 stage := .overtravel } } })
          ∧ (n < w.prof.breakthroughCount → sent ≠ w.layerEnd.getD 0 + w.prof.lateLimit →
              r.exitTest fb sent w = r.putDrill { w with breakthroughCount := n })
          ∧ (n < w.prof.breakthroughCount → sent = w.layerEnd.getD 0 + w.prof.lateLimit →
              r.exitTest fb sent w
                = { r with
                    state := .retracting, stepDone := true
                    cyc := { r.cyc with
                             decision := some (.failed, .noBreakthrough), phase := .run, p := r.cyc.sent.getD r.cyc.p, s := 0
                             work := .drill { w with breakthroughCount := n, torqueCount := 0, stage := .retract } } })))
    ∧ (∀ (h : HeadNo) (payload : List Byte) (s : Station) (w : Head) (fb : Feedback), w = s.head h →
        fb = { actual := (wordAt payload 8).toInt, force := (halfAt payload 12).toNat, torque := (halfAt payload 14).toNat
               spindle := (halfAt payload 16).toNat, status := fb.status, atHome := (byteAt payload 19).getLsbD 0
               rivetPresent := (byteAt payload 19).getLsbD 1 } →
        ((byteAt payload 18 = 0 ∧ fb.status = .ready) ∨ (byteAt payload 18 = 1 ∧ fb.status = .notReady)) →
          ((w.state.inCycle = false ∨ ∀ c, w.engine = some c → c.sent = none) →
              s.toolReturn h payload = s.setHead h { w with toolStatus := fb.status })
            ∧ (∀ c p r u, w.state.inCycle = true → w.engine = some c → c.sent = some p →
              r = cycleReturn fb p w.gate.holdDistance w.cfg.homeBand w.state w.bank c →
              u = r.raised.foldl (fun (v : Station) k => { v with faults := v.faults.raise k })
                (s.setHead h { w with toolStatus := fb.status, engine := some r.cyc, state := r.state, bank := r.bank }) →
                (r.verdict = .going → s.toolReturn h payload = u)
                  ∧ (r.verdict = .home → s.toolReturn h payload = u.finishCycle h)
                  ∧ (r.verdict = .lost → s.toolReturn h payload = u.toFault h .toolNotHome)))
    ∧ (∀ (fb : Feedback) (sent hold band : Int) (st : HeadState) (b : Bank) (c : Cycle) (w : DrillWork) (begun recorded tested : Run),
        c.work = .drill w →
        begun = { cyc := c, state := st, bank := b, raised := [], stepDone := c.stopped, verdict := .going } →
        recorded = { begun with
                     cyc := { c with
                              peakForce := max c.peakForce fb.force
                              work := .drill
                                { w with
                                  peakTorque := max w.peakTorque fb.torque
                                  overTorque :=
                                    if (w.stage.isCut = true ∨ w.stage = .exit) ∧ w.prof.chipLoadTorque ≠ 0
                                      ∧ w.prof.chipLoadTorque < fb.torque then min (w.overTorque + 1) 65535
                                    else w.overTorque } } } →
        tested = ((recorded.overload fb w.prof.overloadForce).spindle fb).drillTests fb sent band →
          cycleReturn fb sent hold band st b c
            = (tested.comparators fb sent hold st w.stage.maskBit).drillStep fb)
    ∧ (∀ (fb : Feedback) (limit : Nat) (r : Run),
        (fb.force ≤ limit → r.overload fb limit = r)
          ∧ (limit < fb.force →
            r.overload fb limit
              = { r with
                  state := .retracting, stepDone := true
                  cyc := { r.cyc with
                           decision := some (.failed, match r.cyc.decision with
                             | some (.failed, why) => why
                             | _ => .overload)
                           phase := .run, p := r.cyc.sent.getD r.cyc.p, s := 0, work := r.cyc.work.toRetract } }))
    ∧ (∀ (fb : Feedback) (sent band : Int) (w : DrillWork) (r : Run), r.cyc.work = .drill w →
        ((r.state = .frozen ∨ w.stage = .approach ∨ w.stage = .overtravel ∨ w.stage = .peckOut ∨ w.stage = .peckIn) →
            r.drillTests fb sent band = r)
          ∧ (r.state ≠ .frozen → w.stage = .seek → r.drillTests fb sent band = r.seekTest fb sent w)
          ∧ (∀ i, r.state ≠ .frozen → w.stage = .cut i → r.drillTests fb sent band = r.torqueTest fb sent i w)
          ∧ (r.state ≠ .frozen → w.stage = .exit → r.drillTests fb sent band = r.exitTest fb sent w)
          ∧ (r.state ≠ .frozen → w.stage = .retract → r.drillTests fb sent band = r.homeTest fb band))
    ∧ (∀ (fb : Feedback) (sent : Int) (i n : Nat) (w : DrillWork) (r : Run), w.stage = .cut i →
        n = (if w.prof.chipLoadTorque < fb.torque then w.torqueCount + 1 else 0) →
          (w.prof.chipLoadTorque = 0 → r.torqueTest fb sent i w = r.putDrill { w with torqueCount := 0 })
            ∧ (w.prof.chipLoadTorque ≠ 0 → n < w.prof.torqueCount →
              r.torqueTest fb sent i w = r.putDrill { w with torqueCount := n })
            ∧ (w.prof.chipLoadTorque ≠ 0 → w.prof.torqueCount ≤ n → w.prof.maxPecks ≤ w.pecks →
              r.torqueTest fb sent i w
                = { r with
                    state := .retracting, stepDone := true
                    cyc := { r.cyc with
                             decision := some (.failed, .chipPack), phase := .run, p := r.cyc.sent.getD r.cyc.p, s := 0
                             work := .drill { w with torqueCount := 0, stage := .retract } } })
            ∧ (w.prof.chipLoadTorque ≠ 0 → w.prof.torqueCount ≤ n → w.pecks < w.prof.maxPecks →
              r.torqueTest fb sent i w
                = { r with
                    cyc := { r.cyc with
                             phase := .stopping
                             stopBound := if i < w.layers.length
                               then w.contact.getD 0 + ((w.layers.take i).map Layer.thickness).sum
                               else w.layerEnd.getD 0 - w.prof.exitWindow
                             work := .drill
                               { w with
                                 torqueCount := 0, pecks := w.pecks + 1, peckDepth := some sent, peckLayer := some i
                                 stage := .peckOut } } }))
    ∧ (∀ (fb : Feedback) (w : DrillWork) (l : Leg) (r : Run), r.cyc.work = .drill w →
        l = w.leg r.bank.ease (decide (((fb.spindle : Int) - w.prof.spindleSpeed).natAbs * 20 ≤ w.prof.spindleSpeed)) →
          ((r.stepDone = true ∨ r.verdict ≠ .going) → r.drillStep fb = r)
            ∧ (r.stepDone = false → r.verdict = .going → r.state = .frozen →
              r.drillStep fb = r.stepped (heldStep w.prof.acceleration l.bound r.cyc.phase r.cyc.p r.cyc.s))
            ∧ (r.stepDone = false → r.verdict = .going → r.state ≠ .frozen → r.cyc.phase = .homeWait → r.drillStep fb = r)
            ∧ (r.stepDone = false → r.verdict = .going → r.state ≠ .frozen → r.cyc.phase = .stopping →
              r.drillStep fb = r.stepped (stoppingStep w.prof.acceleration r.cyc.stopBound r.cyc.p r.cyc.s))
            ∧ (∀ d start, r.stepDone = false → r.verdict = .going → r.state ≠ .frozen →
              (r.cyc.phase = .run ∨ r.cyc.phase = .rampDown) →
              start = (if (w.stage = .peckIn ∧ r.cyc.p = max (w.contact.getD 0 - w.prof.clearance) 0)
                  ∨ (w.stage = .retract ∧ w.breakthrough.map (fun pb => pb + w.prof.overtravel) = some r.cyc.p)
                then 0 else r.cyc.s) →
              d = rampStep w.prof.acceleration l r.cyc.phase r.cyc.p start →
                (d.atBound = false → r.drillStep fb = r.stepped d)
                  ∧ (d.atBound = true → r.drillStep fb = (r.stepped d).drillBoundary w)))
    ∧ (∀ (r : Run) (d : Stepped), r.stepped d = { r with cyc := { r.cyc with p := d.p, s := d.s, phase := d.phase } })
    ∧ (∀ (w : DrillWork) (r : Run),
        (w.stage = .approach →
            r.drillBoundary w
              = { r with
                  cyc := { r.cyc with
                           phase := .run, work := .drill { w with stage := .seek, contactCount := 0, torqueCount := 0 } } })
          ∧ ((w.stage = .seek ∨ w.stage = .exit) → r.drillBoundary w = r)
          ∧ (∀ i, w.stage = .cut i →
            r.drillBoundary w
              = { r with
                  bank := { r.bank with ease := if r.bank.ease = some i then none else r.bank.ease }
                  cyc := { r.cyc with
                           phase := .run
                           work := .drill (if i < w.layers.length then { w with stage := .cut (i + 1) }
                             else { w with stage := .exit, breakthroughCount := 0, torqueCount := 0 }) } })
          ∧ (∀ pc pb off, w.stage = .overtravel → w.contact = some pc → w.breakthrough = some pb →
            off = (((pb - pc) - (w.layers.map Layer.thickness).sum).natAbs : Int) →
            r.drillBoundary w
              = { r with
                  state := .retracting
                  raised := if off ≤ w.prof.stackTolerance then r.raised else .stackMismatch :: r.raised
                  cyc := { r.cyc with
                           decision := some (if off ≤ w.prof.stackTolerance then .good else .suspect, .none)
                           phase := .run, work := .drill { w with stage := .retract, torqueCount := 0 } } })
          ∧ (w.stage = .peckOut →
            r.drillBoundary w
              = { r with
                  cyc := { r.cyc with phase := .run, work := .drill { w with stage := .peckIn, torqueCount := 0 } } })
          ∧ (∀ i, w.stage = .peckIn → w.peckLayer = some i →
            r.drillBoundary w = { r with cyc := { r.cyc with phase := .run, work := .drill { w with stage := .cut i } } })
          ∧ (w.stage = .retract → r.drillBoundary w = { r with cyc := { r.cyc with phase := .homeWait } }))
    ∧ (∀ (w : DrillWork) (ease : Option Nat) (ready : Bool) (f : DrillFields) (feed upTo : Nat → Int) (pc e pb : Int),
        f = w.prof → (∀ i, feed i = ((w.layers[i - 1]?).map Layer.feed).getD 0) →
        (∀ i, upTo i = ((w.layers.take i).map Layer.thickness).sum) →
        pc = w.contact.getD 0 → e = w.layerEnd.getD 0 → pb = w.breakthrough.getD 0 →
          (w.stage = .approach →
              w.leg ease ready
                = { outward := false, target := f.approachSpeed, bound := w.surface - f.clearance, endSpeed := feed 1
                    margin := f.rampMargin })
            ∧ (w.stage = .seek →
              w.leg ease ready
                = { outward := false, target := if ready then feed 1 else 0, bound := w.surface + f.contactWindow
                    endSpeed := feed 1, margin := f.rampMargin })
            ∧ (∀ i, w.stage = .cut i → i < w.layers.length →
              w.leg ease ready
                = { outward := false, target := if ease = some i then f.exitSpeed else feed i, bound := pc + upTo i
                    endSpeed := feed (i + 1), margin := f.rampMargin })
            ∧ (∀ i, w.stage = .cut i → w.layers.length ≤ i →
              w.leg ease ready
                = { outward := false, target := if ease = some i then f.exitSpeed else feed i, bound := e - f.exitWindow
                    endSpeed := f.exitSpeed, margin := f.rampMargin })
            ∧ (w.stage = .exit →
              w.leg ease ready
                = { outward := false, target := f.exitSpeed, bound := e + f.lateLimit, endSpeed := f.exitSpeed
                    margin := f.rampMargin })
            ∧ (w.stage = .overtravel →
              w.leg ease ready
                = { outward := false, target := f.exitSpeed, bound := pb + f.overtravel, endSpeed := f.exitSpeed
                    margin := f.rampMargin })
            ∧ (w.stage = .peckOut →
              w.leg ease ready
                = { outward := true, target := f.retractSpeed, bound := max (pc - f.clearance) 0, endSpeed := 0, margin := 0 })
            ∧ (∀ pk i, w.stage = .peckIn → w.peckDepth = some pk → w.peckLayer = some i →
              w.leg ease ready
                = { outward := false, target := f.approachSpeed
                    bound := max (pk - f.resumeBackoff) (max (pc - f.clearance) 0), endSpeed := feed i
                    margin := f.rampMargin })
            ∧ (w.stage = .retract →
              w.leg ease ready = { outward := true, target := f.retractSpeed, bound := 0, endSpeed := 0, margin := 0 }))

/-- R131, R134, R136 to R140: a cycle return of a setting cycle, in its order: the peak force and the spindle actual, overload, the
stage's test, the comparators, the step. The obstruction test of ADVANCE; the contact test and the boundary test of SEEK; the set-force test of
SQUEEZE: HOLD at the stroke sent, SHORT below the formed minimum, LONG at the boundary, else the count; the step, and what a boundary
step brings; the stages as legs. That a HOLD or SHORT return takes its own step of distance 0 also under a FREEZE is the model's
reading (log 13), and so are two more clauses: a return whose step an immediate stop of the CARRIAGE section has taken makes no step
of its own and still does all its other work (log 21), and the comparators act before a cycle confirmed home ends (log 12).
The item that holds the recorded spindle actual is the model's choice (log 29). -/
def Obligations.SqueezeEndsInHoldShortOrLong : Prop :=
  (∀ (fb : Feedback) (sent contact : Int) (w : SetWork) (r : Run) (n : Nat), w.contact = some contact →
      n = (if w.prof.setForce ≤ fb.force then w.forceCount + 1 else 0) →
        (w.prof.contactCount ≤ n → w.prof.formedMin + w.gripComp ≤ sent - contact →
            r.squeezeTest fb sent w
              = { r with
                  stepDone := true
                  cyc := { r.cyc with
                           phase := .run, p := sent, s := 0
                           work := .set { w with forceCount := n, setStroke := some sent, dwellCount := 0, stage := .hold } } })
          ∧ (w.prof.contactCount ≤ n → sent - contact < w.prof.formedMin + w.gripComp →
            r.squeezeTest fb sent w
              = { r with
                  state := .retracting, stepDone := true
                  cyc := { r.cyc with
                           decision := some (.failed, .short), phase := .run, p := sent, s := 0
                           work := .set { w with forceCount := n, setStroke := some sent, stage := .retract } } })
          ∧ (n < w.prof.contactCount → sent = max (contact + w.prof.formedMax + w.gripComp) contact →
            r.squeezeTest fb sent w
              = { r with
                  state := .retracting
                  cyc := { r.cyc with
                           decision := some (.failed, .long), phase := .run, s := 0
                           work := .set { w with forceCount := n, stage := .retract } } })
          ∧ (n < w.prof.contactCount → sent ≠ max (contact + w.prof.formedMax + w.gripComp) contact →
            r.squeezeTest fb sent w = r.putSet { w with forceCount := n }))
    ∧ (∀ (fb : Feedback) (sent hold band : Int) (st : HeadState) (b : Bank) (c : Cycle) (w : SetWork) (begun tested : Run),
        c.work = .set w →
        begun = { cyc := { c with
                           peakForce := max c.peakForce fb.force
                           work := .set { w with spindleActual := some fb.spindle } }
                  state := st, bank := b, raised := [], stepDone := c.stopped, verdict := .going } →
        tested = (begun.overload fb w.prof.overloadForce).setTests fb sent band →
          cycleReturn fb sent hold band st b c = (tested.comparators fb sent hold st w.stage.maskBit).setStep)
    ∧ (∀ (fb : Feedback) (sent band : Int) (w : SetWork) (r : Run), r.cyc.work = .set w →
        (r.state = .frozen → r.setTests fb sent band = r)
          ∧ (r.state ≠ .frozen → w.stage = .feedWait → r.setTests fb sent band = r.feedTest fb.rivetPresent w)
          ∧ (r.state ≠ .frozen → w.stage = .advance → r.setTests fb sent band = r.obstructionTest fb w)
          ∧ (r.state ≠ .frozen → w.stage = .seek → r.setTests fb sent band = r.rivetTest fb sent w)
          ∧ (r.state ≠ .frozen → w.stage = .squeeze → r.setTests fb sent band = r.squeezeTest fb sent w)
          ∧ (r.state ≠ .frozen → w.stage = .hold → r.setTests fb sent band = r.dwellTest fb.force w)
          ∧ (r.state ≠ .frozen → w.stage = .retract → r.setTests fb sent band = r.homeTest fb band))
    ∧ (∀ (fb : Feedback) (w : SetWork) (r : Run),
        (fb.force < w.prof.contactForce → r.obstructionTest fb w = r)
          ∧ (w.prof.contactForce ≤ fb.force →
            r.obstructionTest fb w
              = { r with
                  state := .retracting, stepDone := true
                  cyc := { r.cyc with
                           decision := some (.failed, .obstructed), phase := .run, p := r.cyc.sent.getD r.cyc.p, s := 0
                           work := r.cyc.work.toRetract } }))
    ∧ (∀ (fb : Feedback) (sent : Int) (w : SetWork) (r : Run) (n : Nat),
        n = (if w.prof.contactForce ≤ fb.force then w.contactCount + 1 else 0) →
          (w.prof.contactCount ≤ n → sent < w.expected - w.prof.gripWindow →
              r.rivetTest fb sent w
                = { r with
                    state := .retracting, stepDone := true
                    cyc := { r.cyc with
                             decision := some (.failed, .obstructed), phase := .run, p := r.cyc.sent.getD r.cyc.p, s := 0
                             work := .set { w with contactCount := n, contact := some sent, stage := .retract } } })
            ∧ (w.prof.contactCount ≤ n → w.expected - w.prof.gripWindow ≤ sent →
              r.rivetTest fb sent w
                = { r with
                    cyc := { r.cyc with
                             phase := .run
                             work := .set
                               { w with contactCount := n, contact := some sent, forceCount := 0, stage := .squeeze } } })
            ∧ (n < w.prof.contactCount → sent = w.expected + w.prof.gripWindow →
              r.rivetTest fb sent w
                = { r with
                    state := .retracting
                    cyc := { r.cyc with
                             decision := some (.aborted, .noRivet), phase := .run, s := 0
                             work := .set { w with contactCount := n, stage := .retract } } })
            ∧ (n < w.prof.contactCount → sent ≠ w.expected + w.prof.gripWindow →
              r.rivetTest fb sent w = r.putSet { w with contactCount := n }))
    ∧ (∀ (w : SetWork) (r : Run), r.cyc.work = .set w →
        ((r.stepDone = true ∨ r.verdict ≠ .going) → r.setStep = r)
          ∧ (r.stepDone = false → r.verdict = .going → (w.stage = .feedWait ∨ w.stage = .hold) →
            r.setStep = { r with cyc := { r.cyc with s := 0 } })
          ∧ (∀ l, r.stepDone = false → r.verdict = .going → w.leg = some l →
            (r.state = .frozen →
                r.setStep = r.stepped (heldStep w.prof.acceleration l.bound r.cyc.phase r.cyc.p r.cyc.s))
              ∧ (r.state ≠ .frozen → r.cyc.phase = .homeWait → r.setStep = r)
              ∧ (r.state ≠ .frozen → r.cyc.phase = .stopping →
                r.setStep = r.stepped (stoppingStep w.prof.acceleration r.cyc.stopBound r.cyc.p r.cyc.s))
              ∧ (∀ d, r.state ≠ .frozen → (r.cyc.phase = .run ∨ r.cyc.phase = .rampDown) →
                d = rampStep w.prof.acceleration l r.cyc.phase r.cyc.p r.cyc.s →
                  (d.atBound = false → r.setStep = r.stepped d)
                    ∧ (d.atBound = true → r.setStep = (r.stepped d).setBoundary w))))
    ∧ (∀ (w : SetWork) (r : Run),
        (w.stage = .advance →
            r.setBoundary w
              = { r with cyc := { r.cyc with phase := .run, work := .set { w with stage := .seek, contactCount := 0 } } })
          ∧ (w.stage = .retract → r.setBoundary w = { r with cyc := { r.cyc with phase := .homeWait } })
          ∧ (w.stage ≠ .advance → w.stage ≠ .retract → r.setBoundary w = r))
    ∧ (∀ (w : SetWork) (f : SetFields) (rc : Int), f = w.prof → rc = w.contact.getD 0 →
        ((w.stage = .feedWait ∨ w.stage = .hold) → w.leg = none)
          ∧ (w.stage = .advance →
            w.leg = some { outward := false, target := f.advanceSpeed, bound := w.expected - f.gripWindow - f.clearance
                           endSpeed := f.squeezeSpeed, margin := 0 })
          ∧ (w.stage = .seek →
            w.leg = some { outward := false, target := f.squeezeSpeed, bound := w.expected + f.gripWindow
                           endSpeed := f.squeezeSpeed, margin := 0 })
          ∧ (w.stage = .squeeze →
            w.leg = some { outward := false, target := f.squeezeSpeed, bound := max (rc + f.formedMax + w.gripComp) rc
                           endSpeed := f.squeezeSpeed, margin := 0 })
          ∧ (w.stage = .retract →
            w.leg = some { outward := true, target := f.retractSpeed, bound := 0, endSpeed := 0, margin := 0 }))

/-- R99, R144 to R147, R150: the Comparator Bank on one cycle return. A comparator whose stage is masked and whose condition holds
counts up to its consecutive count, and fires once when the count reaches it; any other return sets its count to 0 and clears its
mark. The bank is evaluated when the head was ENGAGED or RETRACTING. All that fired act together: every NOTE, the first LATCH while
the latch is empty, and one of RETRACT, FREEZE and EASE, in that precedence: RETRACT ends the cycle FAILED with the comparator's
number in an immediate stop, FREEZE freezes an ENGAGED head that makes no peck, EASE eases a CUT stage; with an outcome decided, or
outside its stage, RETRACT and EASE act as NOTE and FREEZE does nothing. That the bank also acts on the return which ends the cycle
follows R144 and R107; that its actions come before the cycle's end is the model's reading (log 12). That several RETRACT or EASE
comparators which fire together and act as NOTE give one note, and not one each, is the model's reading too (log 22). The mask bits
are those of R99's two lists of stages. -/
def Obligations.ComparatorFiresOnItsCount : Prop :=
  (∀ (fb : Feedback) (sent hold : Int) (bit : Nat) (l : LiveComparator) (met : Bool),
      met = (l.record.mask.getLsbD bit && l.record.holds (sourceValue fb sent hold l.record.source)) →
        (met = false → l.fires fb sent hold bit = false ∧ l.next fb sent hold bit = { l with count := 0, fired := false })
          ∧ (met = true →
            (l.fires fb sent hold bit = true ↔ l.record.count ≤ l.count + 1 ∧ l.fired = false)
              ∧ (l.next fb sent hold bit).count = min (l.count + 1) l.record.count
              ∧ ((l.next fb sent hold bit).fired = true ↔ l.fired = true ∨ l.record.count ≤ l.count + 1)))
    ∧ (∀ (fb : Feedback) (sent hold : Int),
        sourceValue fb sent hold .force = fb.force ∧ sourceValue fb sent hold .torque = fb.torque
          ∧ sourceValue fb sent hold .toolPosition = fb.actual ∧ sourceValue fb sent hold .toolFollowing = sent - fb.actual
          ∧ sourceValue fb sent hold .spindleSpeed = fb.spindle ∧ sourceValue fb sent hold .carriageDev = hold)
    ∧ (∀ (k : Comparator) (v : Int),
        (k.condition = .above → (k.holds v = true ↔ k.low < v)) ∧ (k.condition = .below → (k.holds v = true ↔ v < k.low))
          ∧ (k.condition = .inside → (k.holds v = true ↔ k.low ≤ v ∧ v ≤ k.high))
          ∧ (k.condition = .outside → (k.holds v = true ↔ v < k.low ∨ k.high < v)))
    ∧ (∀ (fb : Feedback) (sent hold : Int) (st : HeadState) (bit : Nat) (r : Run) (fired : List LiveComparator),
        fired = (r.bank.live.filter fun l => l.fires fb sent hold bit) →
          ((st ≠ .engaged ∧ st ≠ .retracting) → r.comparators fb sent hold st bit = r)
            ∧ ((st = .engaged ∨ st = .retracting) →
              r.comparators fb sent hold st bit
                = ((({ r with bank := { r.bank with live := r.bank.live.map fun l => l.next fb sent hold bit } } : Run).note
                      (fired.filter fun l => l.record.action == .note).length).latch fb sent hold
                      (fired.filter fun l => l.record.action == .latch)).actOne fired))
    ∧ (∀ (n : Nat) (r : Run),
        (n = 0 → r.note n = r)
          ∧ (n ≠ 0 →
            r.note n
              = { r with bank := { r.bank with notes := min (r.bank.notes + n) 65535 }, raised := .comparatorNote :: r.raised }))
    ∧ (∀ (fb : Feedback) (sent hold : Int) (r : Run) (l : LiveComparator) (rest : List LiveComparator),
        (r.bank.latch = none →
            r.latch fb sent hold (l :: rest)
              = { r with
                  bank := { r.bank with
                            latch := some { comparator := l.slot, setpoint := sent
                                            source := sourceValue fb sent hold l.record.source } } })
          ∧ (r.bank.latch ≠ none → r.latch fb sent hold (l :: rest) = r)
          ∧ r.latch fb sent hold [] = r)
    ∧ (∀ (fired retracts freezes eases : List LiveComparator) (r : Run),
        retracts = (fired.filter fun l => l.record.action == .retract) →
        freezes = (fired.filter fun l => l.record.action == .freeze) →
        eases = (fired.filter fun l => l.record.action == .ease) →
          (∀ l rest, retracts = l :: rest →
              (r.cyc.decision = none →
                  r.actOne fired
                    = { r with
                        state := .retracting, stepDone := true
                        cyc := { r.cyc with
                                 decision := some (.failed, .comparator l.slot), phase := .run
                                 p := r.cyc.sent.getD r.cyc.p, s := 0, work := r.cyc.work.toRetract } })
                ∧ (r.cyc.decision ≠ none → r.actOne fired = r.note 1))
            ∧ (retracts = [] → freezes ≠ [] →
              ((r.cyc.decision = none ∧ r.state = .engaged
                  ∧ ∀ w, r.cyc.work = .drill w → w.stage ≠ .peckOut ∧ w.stage ≠ .peckIn) →
                  r.actOne fired
                    = { r with
                        state := .frozen, raised := .headFrozen :: r.raised
                        cyc := { r.cyc with work := r.cyc.work.zeroCounts }
                        bank := { r.bank with live := r.bank.live.map fun l => { l with count := 0, fired := false } } })
                ∧ ((r.cyc.decision ≠ none ∨ r.state ≠ .engaged
                  ∨ ∃ w, r.cyc.work = .drill w ∧ (w.stage = .peckOut ∨ w.stage = .peckIn)) → r.actOne fired = r))
            ∧ (retracts = [] → freezes = [] → eases ≠ [] →
              (∀ w i, r.cyc.decision = none → r.cyc.work = .drill w → w.stage = .cut i →
                  r.actOne fired = { r with bank := { r.bank with ease := some i } })
                ∧ ((r.cyc.decision ≠ none ∨ ∀ w i, r.cyc.work = .drill w → w.stage ≠ .cut i) →
                  r.actOne fired = r.note 1))
            ∧ (retracts = [] → freezes = [] → eases = [] → r.actOne fired = r))
    ∧ (∀ (d : DrillWork) (w : SetWork),
        (Work.drill d).zeroCounts = .drill { d with contactCount := 0, breakthroughCount := 0, torqueCount := 0 }
          ∧ (Work.set w).zeroCounts = .set { w with contactCount := 0, forceCount := 0, dwellCount := 0 })
    ∧ ((∀ i : Nat, (DrillStage.cut i).maskBit = i + 1)
        ∧ ([.approach, .seek, .cut 1, .cut 2, .cut 3, .cut 4, .cut 5, .cut 6, .exit, .overtravel, .peckOut, .peckIn, .retract] :
            List DrillStage).map DrillStage.maskBit = [0, 1, 2, 3, 4, 5, 6, 7, 8, 9, 10, 11, 12]
        ∧ ([.feedWait, .advance, .seek, .squeeze, .hold, .retract] : List SetStage).map SetStage.maskBit = [0, 1, 2, 3, 4, 5])

/-- R116, R126: SPIN_UP_LIMIT: on a return of an ENGAGED drilling head without contact whose spin-up count is beyond the limit,
the cycle is ABORTED with reason SPINDLE and retracts, unless the spindle is, or was, at speed, which sets the ready mark. The row is
taken as the deciding part of that return, with no step, peaks, overload test or comparators: the model's choice (log 7). The same
two tests where a TOOL return makes them, on every cycle return of a drilling cycle; that the mark is also set while FROZEN is the
model's reading (log 14). -/
def Obligations.SpinUpLimitAborts : Prop :=
  (∀ (h : HeadNo) (spindle : Half) (s : State) (w : Head) (c : Cycle) (d : DrillWork) (sent : Int), s.ring.active = true →
      w = s.head h → w.state = .engaged → w.engine = some c → c.sent = some sent → c.work = .drill d → d.contact = none →
      d.prof.spinUpLimit < c.frames →
        ((d.spindleReady = true ∨ ((spindle.toNat : Int) - d.prof.spindleSpeed).natAbs * 20 ≤ d.prof.spindleSpeed) →
            exec (.spinUpLimit h spindle) s
              = .next (s.withHead h { w with engine := some { c with work := .drill { d with spindleReady := true } } }))
          ∧ (d.spindleReady = false → ¬ ((spindle.toNat : Int) - d.prof.spindleSpeed).natAbs * 20 ≤ d.prof.spindleSpeed →
            exec (.spinUpLimit h spindle) s
              = .next (s.withHead h
                  { w with
                    state := .retracting
                    engine := some ({ c with decision := some (.aborted, .spindle) } : Cycle).rampedRetract })))
    ∧ (∀ (fb : Feedback) (w : DrillWork) (r : Run) (ready : Bool), r.cyc.work = .drill w →
        ready = (w.spindleReady || decide (((fb.spindle : Int) - w.prof.spindleSpeed).natAbs * 20 ≤ w.prof.spindleSpeed)) →
          ((r.state = .engaged ∧ w.contact = none ∧ w.prof.spinUpLimit < r.cyc.frames ∧ ready = false) →
              r.spindle fb
                = { r with
                    state := .retracting
                    cyc := ({ r.cyc with decision := some (.aborted, .spindle) } : Cycle).rampedRetract })
            ∧ (¬ (r.state = .engaged ∧ w.contact = none ∧ w.prof.spinUpLimit < r.cyc.frames ∧ ready = false) →
              r.spindle fb = r.putDrill { w with spindleReady := ready }))

/-- R127, R63, R78: TOOL_NOT_HOME: on a return of HOME WAIT whose frame carried 0, with the count at its limit: inside the home
band with AT_HOME the cycle ends; else the count goes beyond 1,000 and the head goes to FAULT with cause TOOL_NOT_HOME. The row is
taken as the deciding part of that return, with no peaks, overload test or comparators: the model's choice (log 7). The home test
where a TOOL return makes it: only in HOME WAIT and for a frame that carried 0; a failed test counts. -/
def Obligations.ToolNotHomeFaults : Prop :=
  (∀ (h : HeadNo) (actual : Word) (atHome : Bool) (s : State) (w : Head) (c : Cycle), s.ring.active = true →
      w = s.head h → w.state.inCycle = true → w.engine = some c → c.phase = .homeWait → c.sent = some 0 →
      1000 ≤ c.homeWait →
        ((actual.toInt ≤ w.cfg.homeBand ∧ atHome = true) →
            exec (.toolNotHome h actual atHome) s = .next { s with toStation := s.toStation.finishCycle h })
          ∧ (¬ (actual.toInt ≤ w.cfg.homeBand ∧ atHome = true) → ∃ t : State,
            exec (.toolNotHome h actual atHome) s = .next t
              ∧ (t.head h).state = .fault ∧ (t.head h).faultCause = some .toolNotHome ∧ (t.head h).engine = none
              ∧ (t.head h).claim = none
              ∧ t.faults.raw.getLsbD FaultKind.headFault.number = true
              ∧ (∀ j : HeadNo, j ≠ h → t.head j = s.head j)
              ∧ t.ring = s.ring ∧ t.profiles = s.profiles ∧ t.correction = s.correction ∧ t.keepOut = s.keepOut
              ∧ t.mgmt = s.mgmt ∧ t.pending = s.pending
              ∧ t.toStation
                  = Station.toFault h .toolNotHome
                      (s.setHead h { w with engine := some { c with homeWait := c.homeWait + 1 } })))
    ∧ (∀ (fb : Feedback) (band : Int) (r : Run),
        ((r.cyc.phase ≠ .homeWait ∨ r.cyc.sent ≠ some 0) → r.homeTest fb band = r)
          ∧ (r.cyc.phase = .homeWait → r.cyc.sent = some 0 →
            ((fb.actual ≤ band ∧ fb.atHome = true) → r.homeTest fb band = { r with verdict := .home })
              ∧ (¬ (fb.actual ≤ band ∧ fb.atHome = true) →
                r.homeTest fb band
                  = { r with
                      cyc := { r.cyc with homeWait := r.cyc.homeWait + 1 }
                      verdict := if 1000 < r.cyc.homeWait + 1 then .lost else .going })))

/-- R135: RIVET_FEED_LIMIT: in FEED_WAIT with the feed count beyond the limit, a rivet present begins ADVANCE from speed 0, and
none ends the cycle ABORTED with reason NO_RIVET, retracting from rest. The row is taken as the deciding part of that return, without
the return's step (ADVANCE's first, or RETRACT's boundary step): the model's choice (log 7). The same test where a TOOL return makes
it, within the limit too. -/
def Obligations.RivetFeedLimitAborts : Prop :=
  (∀ (h : HeadNo) (present : Bool) (s : State) (w : Head) (c : Cycle) (d : SetWork) (sent : Int), s.ring.active = true →
      w = s.head h → w.state = .engaged → w.engine = some c → c.sent = some sent → c.work = .set d → d.stage = .feedWait →
      d.prof.feedLimit < c.frames →
        (present = true →
            exec (.rivetFeedLimit h present) s
              = .next (s.withHead h
                  { w with engine := some { c with phase := .run, s := 0, work := .set { d with stage := .advance } } }))
          ∧ (present = false →
            exec (.rivetFeedLimit h present) s
              = .next (s.withHead h
                  { w with
                    state := .retracting
                    engine := some { c with
                                     decision := some (.aborted, .noRivet), phase := .run, s := 0
                                     work := .set { d with stage := .retract } } })))
    ∧ (∀ (present : Bool) (w : SetWork) (r : Run),
        (present = true →
            r.feedTest present w
              = { r with cyc := { r.cyc with phase := .run, s := 0, work := .set { w with stage := .advance } } })
          ∧ (present = false → r.cyc.frames ≤ w.prof.feedLimit → r.feedTest present w = r)
          ∧ (present = false → w.prof.feedLimit < r.cyc.frames →
            r.feedTest present w
              = { r with
                  state := .retracting
                  cyc := { r.cyc with
                           decision := some (.aborted, .noRivet), phase := .run, s := 0, work := r.cyc.work.toRetract } }))

/-- R139: DWELL_COMPLETE: in HOLD on the return that completes the dwell, the outcome is GOOD, or FAILED with reason SLIP where
the force is below the hold force; the ram retracts from rest. The row is taken as the deciding part of that return, without the
return's step (RETRACT's first): the model's choice (log 7). The same tests where a TOOL return makes them, short of the dwell too. -/
def Obligations.DwellCompleteDecides : Prop :=
  (∀ (h : HeadNo) (force : Half) (s : State) (w : Head) (c : Cycle) (d : SetWork) (sent : Int), s.ring.active = true →
      w = s.head h → w.state = .engaged → w.engine = some c → c.sent = some sent → c.work = .set d → d.stage = .hold →
      d.prof.dwell ≤ d.dwellCount + 1 →
        (d.prof.holdForce ≤ force.toNat →
            exec (.dwellComplete h force) s
              = .next (s.withHead h
                  { w with
                    state := .retracting
                    engine := some { c with
                                     decision := some (.good, .none), phase := .run, s := 0
                                     work := .set { d with dwellCount := d.dwellCount + 1, stage := .retract } } }))
          ∧ (force.toNat < d.prof.holdForce →
            exec (.dwellComplete h force) s
              = .next (s.withHead h
                  { w with
                    state := .retracting
                    engine := some { c with
                                     decision := some (.failed, .slip), phase := .run, s := 0
                                     work := .set { d with stage := .retract } } })))
    ∧ (∀ (force : Nat) (w : SetWork) (r : Run),
        (force < w.prof.holdForce →
            r.dwellTest force w
              = { r with
                  state := .retracting
                  cyc := { r.cyc with
                           decision := some (.failed, .slip), phase := .run, s := 0, work := r.cyc.work.toRetract } })
          ∧ (w.prof.holdForce ≤ force → w.dwellCount + 1 < w.prof.dwell →
            r.dwellTest force w = r.putSet { w with dwellCount := w.dwellCount + 1 })
          ∧ (w.prof.holdForce ≤ force → w.prof.dwell ≤ w.dwellCount + 1 →
            r.dwellTest force w
              = { r with
                  state := .retracting
                  cyc := { r.cyc with
                           decision := some (.good, .none), phase := .run, s := 0
                           work := .set { w with dwellCount := w.dwellCount + 1, stage := .retract } } }))

/-! ## Requests: jig and holes

Each request states its answer for every operand: the next state when no check of its rule fails, and the refusal, with the
reason of the first failing check, when one does. -/

/-- R26, R27, R44, R65, R28: JIG LOAD; JIG START, with its completeness test and the IDLE heads that go to SEEKING; and JIG
RELEASE, with the SEEKING heads that go to IDLE (HALTED under the halt, R64). -/
def Obligations.JigSessionOpensStartsAndEnds : Prop :=
  (∀ (id : Word) (s : State), s.ring.active = true →
      (s.table.jig ≠ .working →
          exec (.jigLoad id) s
            = .next (State.doneWith []
                { s with
                  table := { jig := .loading, jigId := id, complete := false, holes := [], halfA := none }
                  heads := s.heads.map fun w => { w with queue := [] } }))
        ∧ (s.table.jig = .working → exec (.jigLoad id) s = .next (s.refusedWith .state)))
    ∧ (∀ s : State, s.ring.active = true →
        (firstFailing (jigStartChecks s) = none →
            exec .jigStart s
              = .next (State.doneWith []
                  { s with
                    table :=
                      { s.table with
                        jig := .working, halfA := none
                        complete := s.table.complete || s.table.holes.all fun e => e.2.terminal }
                    heads := s.heads.map fun w =>
                      if w.state = .idle ∧ w.queue ≠ [] ∧ s.ring.halt = false then { w with state := .seeking } else w
                    faults := if s.table.complete = false ∧ (s.table.holes.all fun e => e.2.terminal) = true
                      then s.faults.raise .jigComplete else s.faults }))
          ∧ (∀ why, firstFailing (jigStartChecks s) = some why → exec .jigStart s = .next (s.refusedWith why))
          ∧ (firstFailing (jigReleaseChecks s) = none →
            exec .jigRelease s
              = .next (State.doneWith []
                  { s with
                    table := { s.table with jig := .released }
                    heads := s.heads.map fun w =>
                      { w with
                        queue := []
                        state := if w.state = .seeking then (if s.ring.halt then .halted else .idle) else w.state } }))
          ∧ (∀ why, firstFailing (jigReleaseChecks s) = some why → exec .jigRelease s = .next (s.refusedWith why)))

/-- R30, R31, R32, R33: HOLE WRITE A fills the holding buffer; HOLE WRITE B commits the record whole, empties the buffer, and takes
the entry of a record already present out of every queue. The table then reads the record at its index, and every other index as
before. -/
def Obligations.HolesAreWrittenInTwoHalves : Prop :=
  (∀ (index : Half) (x t : Word) (face : Byte) (s : State), s.ring.active = true →
      (firstFailing (holeWriteAChecks index x t face s) = none → ∀ f : Face, face = f.code →
          exec (.holeWriteA index x t face) s
            = .next (State.doneWith []
                { s with
                  table := { s.table with
                             halfA := some { index := index.toNat, x := x.toInt, t := t.toInt, face := f } } }))
        ∧ (∀ why, firstFailing (holeWriteAChecks index x t face s) = some why →
            exec (.holeWriteA index x t face) s = .next (s.refusedWith why)))
    ∧ (∀ (index : Half) (drill set : Byte) (depth stroke : Word) (s : State), s.ring.active = true →
        (firstFailing (holeWriteBChecks index drill set depth stroke s) = none → ∀ a, s.table.halfA = some a →
            exec (.holeWriteB index drill set depth stroke) s
              = .next (State.doneWith []
                  { s with
                    table :=
                      { s.table with
                        halfA := none
                        holes := Table.put s.table.holes index.toNat
                          { x := a.x, t := a.t, face := a.face
                            drill := if drill = 0xFF then none else some drill.toNat
                            set := if set = 0xFF then none else some set.toNat
                            depth := depth.toInt, stroke := stroke.toInt
                            state := if drill = 0xFF then .drilled else .pending
                            claimant := none, attempts := 0, entry := none, measured := none, last := none } }
                    heads := if s.hole index.toNat = none then s.heads
                      else s.heads.map fun w => { w with queue := w.queue.erase index.toNat } }))
          ∧ (∀ why, firstFailing (holeWriteBChecks index drill set depth stroke s) = some why →
              exec (.holeWriteB index drill set depth stroke) s = .next (s.refusedWith why)))
    ∧ (∀ (t : Table Hole) (i j : Nat) (v : Hole),
        Table.find (Table.put t i v) j = (if j = i then some v else Table.find t j)
          ∧ (Table.wf t = true → Table.find (Table.remove t i) j = if j = i then none else Table.find t j))

/-- R34, R42, R44: HOLE SKIP makes the record SKIPPED, with the completeness test while the jig is WORKING. A record is terminal in
SET, REJECTED and SKIPPED, and in DRILLED and SUSPECT when its set profile is absent; in no other state. -/
def Obligations.HoleSkipTakesTheHoleOut : Prop :=
  (∀ (index : Half) (s : State), s.ring.active = true →
    (firstFailing (holeSkipChecks index s) = none → ∀ v u, s.hole index.toNat = some v →
        u = Table.put s.table.holes index.toNat { v with state := .skipped } →
        exec (.holeSkip index) s
          = .next (State.doneWith []
              { s with
                table :=
                  { s.table with
                    holes := u
                    complete := s.table.complete || (s.table.jig == .working && u.all fun e => e.2.terminal) }
                faults := if s.table.jig = .working ∧ s.table.complete = false ∧ (u.all fun e => e.2.terminal) = true
                  then s.faults.raise .jigComplete else s.faults }))
      ∧ (∀ why, firstFailing (holeSkipChecks index s) = some why →
          exec (.holeSkip index) s = .next (s.refusedWith why)))
    ∧ ∀ v : Hole, v.terminal = true ↔
        v.state = .set ∨ v.state = .rejected ∨ v.state = .skipped ∨ ((v.state = .drilled ∨ v.state = .suspect) ∧ v.set = none)

/-! ## Requests: correction -/

/-- R46, R47: CORRECTION POINT writes one staging point; CORRECTION COMMIT makes the first m staging points the active table, whole,
and the staging table stands. -/
def Obligations.CorrectionTablesAreWritten : Prop :=
  (∀ (k : Byte) (x dx dt : Word) (s : State), s.ring.active = true →
      (firstFailing (correctionPointChecks k x dx dt) = none →
          exec (.correctionPoint k x dx dt) s
            = .next (State.doneWith []
                { s with
                  correction :=
                    { s.correction with
                      staging := Table.put s.correction.staging k.toNat
                        { x := x.toInt, dx := dx.toInt, dt := dt.toInt } } }))
        ∧ (∀ why, firstFailing (correctionPointChecks k x dx dt) = some why →
            exec (.correctionPoint k x dx dt) s = .next (s.refusedWith why)))
    ∧ (∀ (m : Byte) (s : State), s.ring.active = true →
        (firstFailing (correctionCommitChecks m s) = none →
            exec (.correctionCommit m) s
              = .next (State.doneWith [] { s with correction := { s.correction with active := stagedUpTo m s } }))
          ∧ (∀ why, firstFailing (correctionCommitChecks m s) = some why →
              exec (.correctionCommit m) s = .next (s.refusedWith why)))

/-- R49, R50: the correction at a nominal X: 0 with no points, the end values held beyond the ends, and inside a segment the exact
quotient rounded to the nearest whole value, halves away from zero. The corrected position of a hole is its nominal X and T plus the
correction of the active points at its nominal X. -/
def Obligations.CorrectionInterpolatesAndHoldsItsEnds : Prop :=
  (∀ x : Int, correctionAt [] x = { dx := 0, dt := 0 })
    ∧ (∀ (a : Point) (rest : List Point) (x : Int), x ≤ a.x → correctionAt (a :: rest) x = { dx := a.dx, dt := a.dt })
    ∧ (∀ (before : List Point) (a : Point) (x : Int), (before ++ [a]).Pairwise (fun u v => u.x < v.x) → a.x ≤ x →
        correctionAt (before ++ [a]) x = { dx := a.dx, dt := a.dt })
    ∧ (∀ (before after : List Point) (a b : Point) (x : Int),
        (before ++ a :: b :: after).Pairwise (fun u v => u.x < v.x) → a.x ≤ x → x < b.x →
          correctionAt (before ++ a :: b :: after) x
            = { dx := a.dx + roundQuotient ((b.dx - a.dx) * (x - a.x)) (b.x - a.x)
                dt := a.dt + roundQuotient ((b.dt - a.dt) * (x - a.x)) (b.x - a.x) })
    ∧ (∀ (n d : Int), 0 < d →
        2 * (n - roundQuotient n d * d).natAbs ≤ d.natAbs
          ∧ (2 * (n - roundQuotient n d * d).natAbs = d.natAbs → n.natAbs ≤ (roundQuotient n d * d).natAbs))
    ∧ (∀ (s : Station) (v : Hole),
        (s.correctedPosition v).x = v.x + (correctionAt s.correction.active v.x).dx
          ∧ (s.correctedPosition v).t = v.t + (correctionAt s.correction.active v.x).dt)

/-! ## Requests: profiles -/

/-- R93, R94, R95, R96: PROFILE BEGIN opens a profile with the defaults of its kind, value by value, and nothing else. -/
def Obligations.ProfileBeginOpensWithDefaults : Prop :=
  ∀ (p kind : Byte) (s : State), s.ring.active = true →
    (firstFailing (profileBeginChecks p kind s) = none →
        exec (.profileBegin p kind) s
          = .next (State.doneWith []
              { s with
                profiles := Table.put s.profiles p.toNat
                  { state := .loading
                    body := if kind = 0 then
                      .drill
                        { spindleSpeed := 1500, spinUpLimit := 250, approachSpeed := 500, acceleration := 20, clearance := 2000
                          rampMargin := 0, retractSpeed := 1000, contactForce := 1000, contactCount := 2, contactWindow := 4000
                          exitSpeed := 40, exitWindow := 2000, breakthroughForce := 300, breakthroughCount := 2
                          lateLimit := 2000, overtravel := 2000, stackTolerance := 500, overloadForce := 20000
                          chipLoadTorque := 0, torqueCount := 3, maxPecks := 3, resumeBackoff := 1000 } []
                    else
                      .set
                        { feedLimit := 200, advanceSpeed := 400, acceleration := 20, clearance := 3000, squeezeSpeed := 60
                          retractSpeed := 1000, contactForce := 200, contactCount := 2, gripWindow := 1500, setForce := 8000
                          holdForce := 6000, dwell := 20, overloadForce := 20000, formedMin := 4000, formedMax := 6500
                          nominalGrip := 20000, acceptSuspect := false }
                    comparators := []
                    clamped := false } }))
      ∧ (∀ why, firstFailing (profileBeginChecks p kind s) = some why →
          exec (.profileBegin p kind) s = .next (s.refusedWith why))

/-- R97, R101: PROFILE FIELDS replaces one group: read back, the group is the bytes sent, as sent; the other groups, the layers
and the comparators stand. -/
def Obligations.ProfileFieldsReplaceOneGroup : Prop :=
  ∀ (p group : Byte) (values : List Byte) (s : State), s.ring.active = true →
    (firstFailing (profileFieldsChecks p group values s) = none → ∀ q, s.profile p.toNat = some q →
        exec (.profileFields p group values) s
            = .next (State.doneWith []
                { s with
                  profiles := Table.put s.profiles p.toNat { q with body := q.body.write group.toNat values } })
          ∧ (values.length = 74 →
              fieldGroupBytes (some { q with body := q.body.write group.toNat values }) group.toNat
                = values.take (fieldGroupBytes (some q) group.toNat).length)
          ∧ (∀ g, g ≤ 2 → g ≠ group.toNat →
              fieldGroupBytes (some { q with body := q.body.write group.toNat values }) g = fieldGroupBytes (some q) g)
          ∧ (q.body.write group.toNat values).layers = q.body.layers
          ∧ (q.body.write group.toNat values).kind = q.body.kind)
      ∧ (∀ why, firstFailing (profileFieldsChecks p group values s) = some why →
          exec (.profileFields p group values) s = .next (s.refusedWith why))

/-- R98, R99: PROFILE LAYER and PROFILE COMPARATOR write or empty one slot, with the values as sent. -/
def Obligations.ProfileSlotsAreWrittenAsSent : Prop :=
  (∀ (p i : Byte) (thickness feed : Word) (s : State), s.ring.active = true →
    (firstFailing (profileLayerChecks p i s) = none → ∀ q f layers, s.profile p.toNat = some q → q.body = .drill f layers →
        exec (.profileLayer p i thickness feed) s
          = .next (State.doneWith []
              { s with
                profiles := Table.put s.profiles p.toNat
                  { q with
                    body := .drill f
                      (if thickness.toInt = 0 then Table.remove layers i.toNat
                       else Table.put layers i.toNat { thickness := thickness.toInt, feed := feed.toInt }) } }))
      ∧ (∀ why, firstFailing (profileLayerChecks p i s) = some why →
          exec (.profileLayer p i thickness feed) s = .next (s.refusedWith why)))
    ∧ (∀ (p k source condition : Byte) (low high : Word) (mask : Half) (count action : Byte) (s : State),
        s.ring.active = true →
      (firstFailing (profileComparatorChecks p k source condition action s) = none → ∀ q, s.profile p.toNat = some q →
          (source = 0 →
            exec (.profileComparator p k source condition low high mask count action) s
              = .next (State.doneWith []
                  { s with
                    profiles := Table.put s.profiles p.toNat
                      { q with comparators := Table.remove q.comparators k.toNat } }))
          ∧ (∀ (src : Source) (cond : Condition) (act : Action), source = src.code → condition = cond.code →
              action = act.code →
            exec (.profileComparator p k source condition low high mask count action) s
              = .next (State.doneWith []
                  { s with
                    profiles := Table.put s.profiles p.toNat
                      { q with
                        comparators := Table.put q.comparators k.toNat
                          { source := src, condition := cond, low := low.toInt, high := high.toInt, mask
                            count := count.toNat, action := act } } })))
        ∧ (∀ why, firstFailing (profileComparatorChecks p k source condition action s) = some why →
            exec (.profileComparator p k source condition low high mask count action) s = .next (s.refusedWith why)))

/-- R95, R96, R98, R99, R100: PROFILE END clamps every value to its range, marks a change, makes the structural checks in their
order, and answers with the new state and reason; an unsound profile is INVALID and raises PROFILE_INVALID. The ranges of every
field, of a layer and of a comparator's count, and the checks in the order of the table. -/
def Obligations.ProfileEndClampsAndChecks : Prop :=
  (∀ (p : Byte) (s : State), s.ring.active = true →
      (firstFailing (profileEndChecks p s) = none → ∀ q body comparators clamped, s.profile p.toNat = some q →
          body = q.body.clamp → comparators = (q.comparators.map fun e => (e.1, e.2.clamp)) →
          clamped = (q.clamped || decide (body ≠ q.body) || decide (comparators ≠ q.comparators)) →
            (structuralFailure body comparators = none →
              exec (.profileEnd p) s
                = .next ((if clamped then State.clampedWith [0x02, 0x00] else State.doneWith [0x02, 0x00])
                    { s with
                      profiles := Table.put s.profiles p.toNat { state := .valid, body, comparators, clamped } }))
            ∧ (∀ why, structuralFailure body comparators = some why →
              exec (.profileEnd p) s
                = .next ((if clamped then State.clampedWith [0x03, why.code] else State.doneWith [0x03, why.code])
                    { s with
                      profiles := Table.put s.profiles p.toNat { state := .invalid why, body, comparators, clamped }
                      faults := s.faults.raise .profileInvalid })))
        ∧ (∀ why, firstFailing (profileEndChecks p s) = some why →
            exec (.profileEnd p) s = .next (s.refusedWith why)))
    ∧ (∀ (f : DrillFields) (layers : Table Layer),
        (Body.drill f layers).clamp
          = .drill
              { spindleSpeed := max 100 (min 6000 f.spindleSpeed), spinUpLimit := max 1 (min 4000 f.spinUpLimit)
                approachSpeed := max 1 (min 4000 f.approachSpeed), acceleration := max 1 (min 200 f.acceleration)
                clearance := max 500 (min 20000 f.clearance), rampMargin := max 0 (min 10000 f.rampMargin)
                retractSpeed := max 1 (min 4000 f.retractSpeed), contactForce := max 50 (min 20000 f.contactForce)
                contactCount := max 1 (min 4 f.contactCount), contactWindow := max 500 (min 20000 f.contactWindow)
                exitSpeed := max 1 (min 400 f.exitSpeed), exitWindow := max 500 (min 20000 f.exitWindow)
                breakthroughForce := min 20000 f.breakthroughForce
                breakthroughCount := max 1 (min 8 f.breakthroughCount), lateLimit := max 0 (min 20000 f.lateLimit)
                overtravel := max 0 (min 10000 f.overtravel), stackTolerance := max 0 (min 10000 f.stackTolerance)
                overloadForce := min 65535 f.overloadForce, chipLoadTorque := min 65535 f.chipLoadTorque
                torqueCount := max 1 (min 8 f.torqueCount), maxPecks := max 1 (min 15 f.maxPecks)
                resumeBackoff := max 200 (min 5000 f.resumeBackoff) }
              (layers.map fun e =>
                (e.1, { thickness := max 500 (min 60000 e.2.thickness), feed := max 1 (min 400 e.2.feed) })))
    ∧ (∀ f : SetFields,
        (Body.set f).clamp
          = .set
              { feedLimit := max 1 (min 4000 f.feedLimit), advanceSpeed := max 1 (min 4000 f.advanceSpeed)
                acceleration := max 1 (min 200 f.acceleration), clearance := max 500 (min 20000 f.clearance)
                squeezeSpeed := max 1 (min 400 f.squeezeSpeed), retractSpeed := max 1 (min 4000 f.retractSpeed)
                contactForce := max 10 (min 5000 f.contactForce), contactCount := max 1 (min 4 f.contactCount)
                gripWindow := max 200 (min 10000 f.gripWindow), setForce := max 100 (min 60000 f.setForce)
                holdForce := max 100 (min 60000 f.holdForce), dwell := max 1 (min 1000 f.dwell)
                overloadForce := min 65535 f.overloadForce, formedMin := max 500 (min 30000 f.formedMin)
                formedMax := max 500 (min 30000 f.formedMax), nominalGrip := max 1000 (min 150000 f.nominalGrip)
                acceptSuspect := f.acceptSuspect })
    ∧ (∀ k : Comparator, k.clamp = { k with count := max 1 (min 8 k.count) })
    ∧ (∀ (f : DrillFields) (layers : Table Layer) (cs : Table Comparator) (bad : Bool),
        bad = (cs.any fun e => decide ((e.2.condition = .inside ∨ e.2.condition = .outside) ∧ e.2.high < e.2.low)) →
          structuralFailure (.drill f []) cs = some .noLayers
            ∧ (∀ n last, layers.getLast? = some (n, last) →
              structuralFailure (.drill f layers) cs =
                if layers.map Prod.fst ≠ (List.range layers.length).map (· + 1) then some .layerGap
                else if last.thickness ≤ f.exitWindow then some .exitWindow
                else if f.contactForce ≤ f.breakthroughForce then some .breakthroughForce
                else if f.overloadForce ≤ f.contactForce then some .overload
                else if bad = true then some .comparatorLimits
                else none))
    ∧ (∀ (f : SetFields) (cs : Table Comparator) (bad : Bool),
        bad = (cs.any fun e => decide ((e.2.condition = .inside ∨ e.2.condition = .outside) ∧ e.2.high < e.2.low)) →
          structuralFailure (.set f) cs =
            if f.overloadForce ≤ f.setForce then some .overload
            else if f.formedMax ≤ f.formedMin then some .formedStroke
            else if f.setForce < f.holdForce then some .holdForce
            else if bad = true then some .comparatorLimits
            else none)

/-! ## Requests: heads and groups -/

/-- R57: HEAD CONFIG replaces the record of an OFFLINE head with the clamped values. -/
def Obligations.HeadConfigStoresClampedValues : Prop :=
  ∀ (h : HeadNo) (kind face group : Byte) (ox ot w band : Word) (count : Byte) (shift : Word) (mode : Byte) (home : Word)
    (s : State), s.ring.active = true →
    (firstFailing (headConfigChecks h kind face mode s) = none → ∀ (k : HeadKind) (f : Face) (m : StartMode) (c : HeadConfig),
        kind = k.code → face = f.code → mode = m.code →
        c = { kind := k, face := f
              group := Fin.ofNat 4 (min 3 group.toNat)
              offsetX := max (-1000000) (min 1000000 ox.toInt)
              offsetT := max (-1000000) (min 1000000 ot.toInt)
              window := max 50 (min 2000 w.toInt)
              settleBand := max 5 (min 500 band.toInt)
              settleCount := max 1 (min 16 count.toNat)
              shiftLimit := max 10 (min 2000 shift.toInt)
              startMode := m
              homeBand := max 50 (min 2000 home.toInt) } →
        exec (.headConfig (headByte h) kind face group ox ot w band count shift mode home) s
          = .next ((if c.group.val = group.toNat ∧ c.offsetX = ox.toInt ∧ c.offsetT = ot.toInt ∧ c.window = w.toInt
                ∧ c.settleBand = band.toInt ∧ c.settleCount = count.toNat ∧ c.shiftLimit = shift.toInt
                ∧ c.homeBand = home.toInt then State.doneWith [] else State.clampedWith [])
              (s.withHead h { s.head h with cfg := c })))
      ∧ (∀ why, firstFailing (headConfigChecks h kind face mode s) = some why →
          exec (.headConfig (headByte h) kind face group ox ot w band count shift mode home) s = .next (s.refusedWith why))

/-- R58: GROUP CONFIG stores the clamped distance, unless two holders of the group stand closer. -/
def Obligations.GroupConfigStoresTheKeepOut : Prop :=
  ∀ (g : Fin 4) (d : Word) (s : State), s.ring.active = true →
    (firstFailing (groupConfigChecks g d s) = none →
        exec (.groupConfig (headByte g) d) s
          = .next ((if keepOutClamped d = d.toInt then State.doneWith [] else State.clampedWith [])
              { s with keepOut := s.keepOut.set g (keepOutClamped d) }))
      ∧ (∀ why, firstFailing (groupConfigChecks g d s) = some why →
          exec (.groupConfig (headByte g) d) s = .next (s.refusedWith why))

/-- R60, R61, R62, R35, R87: HEAD ENABLE, HEAD DISABLE and HEAD CLEAR. A claim held by a head that is disabled is released, its
hole's claimant cleared. The gate is moved as the table of R87 says. -/
def Obligations.HeadsGoInAndOutOfService : Prop :=
  (∀ (h : HeadNo) (s : State) (w : Head), s.ring.active = true → w = s.head h →
      (firstFailing (headEnableChecks h s) = none →
          exec (.headEnable (headByte h)) s
            = .next (State.doneWith [] (s.withHead h { w with state := if s.ring.halt then .halted else .idle })))
        ∧ (∀ why, firstFailing (headEnableChecks h s) = some why →
            exec (.headEnable (headByte h)) s = .next (s.refusedWith why))
        ∧ (firstFailing (headDisableChecks h s) = none →
            (w.state = .offline → exec (.headDisable (headByte h)) s = .next (State.doneWith [] s))
              ∧ (w.state ≠ .offline →
                exec (.headDisable (headByte h)) s
                  = .next (State.doneWith []
                      { s with
                        heads := s.heads.set h
                          { w with
                            claim := none, queue := [], settle := 0, faultCause := none, gate := w.gate.letGo
                            state := .offline }
                        table :=
                          { s.table with
                            holes := match w.claim with
                              | none => s.table.holes
                              | some c => match s.hole c.hole with
                                | none => s.table.holes
                                | some v => Table.put s.table.holes c.hole { v with claimant := none } } })))
        ∧ (∀ why, firstFailing (headDisableChecks h s) = some why →
            exec (.headDisable (headByte h)) s = .next (s.refusedWith why))
        ∧ (firstFailing (headClearChecks h s) = none →
          exec (.headClear (headByte h)) s
            = .next (State.doneWith []
                (s.withHead h
                  { w with queue := [], settle := 0, faultCause := none, gate := w.gate.clear, state := .offline })))
        ∧ (∀ why, firstFailing (headClearChecks h s) = some why →
            exec (.headClear (headByte h)) s = .next (s.refusedWith why)))
    ∧ (∀ g : Gate,
        g.letGo = (if g.state = .held then { g with state := .rejoin } else g)
          ∧ g.clear = (match g.state, g.passed with
            | .opened, none => g
            | .opened, some sp => { g with state := .rejoin, held := some sp }
            | .held, _ => { g with state := .rejoin }
            | .rejoin, _ => g))

/-- R67, R68, R65: ASSIGN puts the hole at the tail of the queue; an IDLE head then goes to SEEKING while the jig is WORKING and the
halt is absent. WITHDRAW leaves only the entry of a claimed hole, and answers with the number of entries removed; a SEEKING head
with an empty queue goes to IDLE (HALTED under the halt, R64). -/
def Obligations.AssignJoinsAndWithdrawLeaves : Prop :=
  (∀ (h : HeadNo) (i : Half) (s : State) (w : Head), s.ring.active = true → w = s.head h →
      (firstFailing (assignChecks h i s) = none →
          exec (.assign (headByte h) i) s
            = .next (State.doneWith []
                (s.withHead h
                  { w with
                    queue := w.queue ++ [i.toNat]
                    state := if w.state = .idle ∧ s.table.jig = .working ∧ s.ring.halt = false then .seeking
                      else w.state })))
        ∧ (∀ why, firstFailing (assignChecks h i s) = some why →
            exec (.assign (headByte h) i) s = .next (s.refusedWith why)))
    ∧ (∀ (h : HeadNo) (s : State) (w : Head) (kept : List Nat), s.ring.active = true → w = s.head h →
        kept = (w.queue.filter fun i => decide (w.claim.map (fun c => c.hole) = some i)) →
          exec (.withdraw (headByte h)) s
            = .next (State.doneWith [BitVec.ofNat 8 (w.queue.length - kept.length)]
                (s.withHead h
                  { w with
                    queue := kept
                    state := if w.state = .seeking ∧ kept = [] then (if s.ring.halt then .halted else .idle)
                      else w.state })))

/-- R76: START engages, in ascending number, every named head that is ARMED, and answers with their set; the other heads' own
records stand. Bits 4 to 7 are not read. -/
def Obligations.StartEngagesTheArmedHeadsNamed : Prop :=
  ∀ (set : Byte) (s : State), s.ring.active = true →
    (firstFailing (startChecks set s) = none →
        exec (.start set) s
          = .next (State.doneWith
              [(if started set s 0 then 1 else 0) + (if started set s 1 then 2 else 0) + (if started set s 2 then 4 else 0)
                + (if started set s 3 then 8 else 0)]
              { s with
                toStation := allFour.foldl (fun u h => if started set s h then u.engage h else u) s.toStation }))
      ∧ (∀ why, firstFailing (startChecks set s) = some why → exec (.start set) s = .next (s.refusedWith why))

/-- R64, R115, R123, R126, R134, R140, R148, R149: RESUME of a HALTED head, which goes on by its queue, and of a FROZEN one, whose cycle goes on in
RUN with its counts at 0. CANCEL of a FROZEN head: CANCELLED with reason NONE, and a ramped retract. A ramped retract, whoever
decides it: a RETRACT goes on; a STOPPING goes on, and RETRACT follows it; a tool that moves outward goes on outward in RUN; a tool
that stands at rest, or in a stage that does not move it, retracts in RUN from speed 0; a tool that moves inward first stops, bounded
by its stage. The boundary of every stage of either kind, and the stages that move outward. That a tool whose setpoint is its own stage's boundary counts as standing there whatever its speed, as does one that
stands at PECK_OUT's boundary in PECK_IN, and that one which has just crossed into its next stage counts as moving, is the model's reading of R126 (log 10). -/
def Obligations.FrozenAndHaltedHeadsGoOn : Prop :=
  (∀ (h : HeadNo) (s : State) (w : Head), s.ring.active = true → w = s.head h →
      (firstFailing (resumeChecks h s) = none →
          (w.state = .halted →
            exec (.resume (headByte h)) s
              = .next (State.doneWith []
                  (s.withHead h
                    { w with state := if w.queue ≠ [] ∧ s.table.jig = .working then .seeking else .idle })))
            ∧ (w.state = .frozen →
              exec (.resume (headByte h)) s
                = .next (State.doneWith []
                    (s.withHead h
                      { w with
                        state := .engaged
                        engine := w.engine.map fun c => { c with phase := .run, work := c.work.zeroCounts } }))))
        ∧ (∀ why, firstFailing (resumeChecks h s) = some why →
            exec (.resume (headByte h)) s = .next (s.refusedWith why)))
    ∧ (∀ (h : HeadNo) (s : State) (w : Head), s.ring.active = true → w = s.head h →
        (firstFailing (cancelChecks h s) = none →
            exec (.cancel (headByte h)) s
              = .next (State.doneWith []
                  (s.withHead h
                    { w with
                      state := .retracting
                      engine := w.engine.map fun c =>
                        ({ c with decision := some (.cancelled, .none) } : Cycle).rampedRetract })))
          ∧ (∀ why, firstFailing (cancelChecks h s) = some why →
              exec (.cancel (headByte h)) s = .next (s.refusedWith why)))
    ∧ (∀ (d : DrillWork) (w : SetWork),
        (Work.drill d).toRetract = .drill { d with stage := .retract, torqueCount := 0 }
          ∧ (Work.set w).toRetract = .set { w with stage := .retract })
    ∧ (∀ (c : Cycle) (turned : Prop),
        (turned ↔ ∃ d, c.work = .drill d ∧ d.stage = .peckIn ∧ c.p = max (d.contact.getD 0 - d.prof.clearance) 0) →
        (c.work.retracting = true → c.rampedRetract = c)
          ∧ (c.work.retracting = false → c.phase = .stopping → c.rampedRetract = { c with work := c.work.toRetract })
          ∧ (c.work.retracting = false → c.phase ≠ .stopping → c.work.outward = true →
            c.rampedRetract = { c with phase := .run, work := c.work.toRetract })
          ∧ (c.work.outward = false → c.phase ≠ .stopping →
            (c.work.bound = none → c.rampedRetract = { c with phase := .run, s := 0, work := c.work.toRetract })
              ∧ (∀ b, c.work.bound = some b →
                ((c.s = 0 ∨ c.p = b ∨ turned) → c.rampedRetract = { c with phase := .run, s := 0, work := c.work.toRetract })
                  ∧ (c.s ≠ 0 → c.p ≠ b → ¬ turned →
                    c.rampedRetract = { c with phase := .stopping, stopBound := b, work := c.work.toRetract }))))
    ∧ (∀ (d : DrillWork) (f : DrillFields) (pc e pb : Int), f = d.prof → pc = d.contact.getD 0 → e = d.layerEnd.getD 0 →
        pb = d.breakthrough.getD 0 →
          ((Work.drill d).outward = true ↔ d.stage = .retract ∨ d.stage = .peckOut)
            ∧ ((Work.drill d).retracting = true ↔ d.stage = .retract)
            ∧ (d.stage = .approach → (Work.drill d).bound = some (d.surface - f.clearance))
            ∧ (d.stage = .seek → (Work.drill d).bound = some (d.surface + f.contactWindow))
            ∧ (∀ i, d.stage = .cut i →
              (Work.drill d).bound = some (if i < d.layers.length then pc + ((d.layers.take i).map Layer.thickness).sum
                else e - f.exitWindow))
            ∧ (d.stage = .exit → (Work.drill d).bound = some (e + f.lateLimit))
            ∧ (d.stage = .overtravel → (Work.drill d).bound = some (pb + f.overtravel))
            ∧ (d.stage = .peckOut → (Work.drill d).bound = some (max (pc - f.clearance) 0))
            ∧ (∀ pk, d.stage = .peckIn → d.peckDepth = some pk →
              (Work.drill d).bound = some (max (pk - f.resumeBackoff) (max (pc - f.clearance) 0)))
            ∧ (d.stage = .retract → (Work.drill d).bound = some 0))
    ∧ (∀ (w : SetWork) (f : SetFields) (rc : Int), f = w.prof → rc = w.contact.getD 0 →
        ((Work.set w).outward = true ↔ w.stage = .retract)
          ∧ ((Work.set w).retracting = true ↔ w.stage = .retract)
          ∧ ((w.stage = .feedWait ∨ w.stage = .hold) → (Work.set w).bound = none)
          ∧ (w.stage = .advance → (Work.set w).bound = some (w.expected - f.gripWindow - f.clearance))
          ∧ (w.stage = .seek → (Work.set w).bound = some (w.expected + f.gripWindow))
          ∧ (w.stage = .squeeze → (Work.set w).bound = some (max (rc + f.formedMax + w.gripComp) rc))
          ∧ (w.stage = .retract → (Work.set w).bound = some 0))

/-- R57, R58, R60, R61, R62, R64, R67, R68, R79, R149: a request that names a head or a group above 3 is refused BAD_INDEX,
whatever its other arguments. -/
def Obligations.NumbersAboveThreeAreRefused : Prop :=
  ∀ (h : Byte) (s : State), s.ring.active = true → 3 < h.toNat →
    (∀ kind face group ox ot w band count shift mode home,
        exec (.headConfig h kind face group ox ot w band count shift mode home) s = .next (s.refusedWith .badIndex))
      ∧ (∀ d, exec (.groupConfig h d) s = .next (s.refusedWith .badIndex))
      ∧ exec (.headEnable h) s = .next (s.refusedWith .badIndex)
      ∧ exec (.headDisable h) s = .next (s.refusedWith .badIndex)
      ∧ exec (.headClear h) s = .next (s.refusedWith .badIndex)
      ∧ (∀ i, exec (.assign h i) s = .next (s.refusedWith .badIndex))
      ∧ exec (.withdraw h) s = .next (s.refusedWith .badIndex)
      ∧ exec (.resume h) s = .next (s.refusedWith .badIndex)
      ∧ exec (.cancel h) s = .next (s.refusedWith .badIndex)
      ∧ exec (.headRead h) s = .next (s.refusedWith .badIndex)

/-! ## Requests: map, station, results, faults, reads -/

/-- R18, R19, R20: MAP WRITE replaces one entry, or empties it for NONE, and MAP CLEAR empties the map. A map has room for one CARRIAGE
and one TOOL entry per head, one STATUS entry, and four RESULT_SLOT entries. -/
def Obligations.MapIsWrittenAndCleared : Prop :=
  (∀ (e id role head : Byte) (s : State), s.ring.active = true →
    (firstFailing (mapWriteChecks e id role head s) = none →
        exec (.mapWrite e id role head) s
          = .next (State.doneWith []
              { s with
                ring := { s.ring with
                          map := if role = 0 then Table.remove s.ring.map e.toNat
                            else Table.put s.ring.map e.toNat { id := id.toNat, role := codedRole role head } } }))
      ∧ (∀ why, firstFailing (mapWriteChecks e id role head s) = some why →
          exec (.mapWrite e id role head) s = .next (s.refusedWith why)))
    ∧ (∀ s : State, s.ring.active = true →
      (someHeadInService s = false →
          exec .mapClear s = .next (State.doneWith [] { s with ring := { s.ring with map := [] } }))
        ∧ (someHeadInService s = true → exec .mapClear s = .next (s.refusedWith .state)))
    ∧ (∀ h : HeadNo, (Role.carriage h).room = 1 ∧ (Role.tool h).room = 1 ∧ Role.status.room = 1 ∧ Role.resultSlot.room = 4)

/-- R163, R157, R158: STATION CONFIG stores the clamped loss limit and thresholds, makes the hold test at once, and answers with
the stored values; the hold test, in each row of its table. -/
def Obligations.StationConfigAndTheHoldTest : Prop :=
  (∀ (limit : Byte) (upper lower : Half) (s : State) (l u w : Nat), s.ring.active = true →
      l = max 1 (min 7 limit.toNat) → u = max 8 (min 60 upper.toNat) → w = min (u - 8) lower.toNat →
        exec (.stationConfig limit upper lower) s
          = .next ((if l = limit.toNat ∧ u = upper.toNat ∧ w = lower.toNat then State.doneWith else State.clampedWith)
              (u8 l ++ u16 u ++ u16 w)
              { s with
                toStation := Station.holdTest
                  { s.toStation with
                    ring := { s.ring with lossLimit := l }
                    results := { s.results with upper := u, lower := w } } }))
    ∧ (∀ s : Station,
        (s.results.hold = false → s.results.upper ≤ s.results.records.length →
            s.holdTest = { s with results := { s.results with hold := true }, faults := s.faults.raise .resultHold })
          ∧ (s.results.hold = false → s.results.records.length < s.results.upper → s.holdTest = s)
          ∧ (s.results.hold = true → s.results.records.length ≤ s.results.lower →
            s.holdTest = { s with results := { s.results with hold := false } })
          ∧ (s.results.hold = true → s.results.lower < s.results.records.length → s.holdTest = s))

/-- R161: RESULT FLUSH removes every record and answers with their number; a set hold is cleared (for thresholds that STATION
CONFIG can store, R157, of which the upper one is above 0). -/
def Obligations.ResultFlushEmptiesTheQueue : Prop :=
  ∀ s : State, s.ring.active = true → 0 < s.results.upper →
    exec .resultFlush s
      = .next (State.doneWith [BitVec.ofNat 8 s.results.records.length]
          { s with results := { s.results with records := [], hold := false } })

/-- R24, R165, R166, R167: FAULT CLEAR, FAULT ENABLE and ATTENTION REARM; bit 15 is not read. The attention test is made where the
enabled set gains a kind, and at the rearm. A kind that is raised joins the raw set, which gains the enabled set a kind where it is
enabled and was not raw; its number is that of the code list. -/
def Obligations.FaultSetsAndAttention : Prop :=
  (∀ (set : Half) (s : State), s.ring.active = true →
      exec (.faultClear set) s
          = .next (State.doneWith [] { s with faults := { s.faults with raw := s.faults.raw &&& ~~~(set.setWidth 15) } })
        ∧ (s.faults.raw &&& set.setWidth 15 &&& ~~~s.faults.enable ≠ 0 → s.faults.armed = true →
          exec (.faultEnable set) s
            = .next (State.doneWith []
                { s with
                  faults := { s.faults with enable := set.setWidth 15, attention := true, armed := false } }))
        ∧ ((s.faults.raw &&& set.setWidth 15 &&& ~~~s.faults.enable = 0 ∨ s.faults.armed = false) →
          exec (.faultEnable set) s
            = .next (State.doneWith [] { s with faults := { s.faults with enable := set.setWidth 15 } })))
    ∧ (∀ s : State, s.ring.active = true →
      (s.faults.raw &&& s.faults.enable = 0 →
          exec .attentionRearm s
            = .next (State.doneWith [] { s with faults := { s.faults with attention := false, armed := true } }))
        ∧ (s.faults.raw &&& s.faults.enable ≠ 0 →
          exec .attentionRearm s
            = .next (State.doneWith [] { s with faults := { s.faults with attention := true, armed := false } })))
    ∧ (∀ (k : FaultKind) (f : FaultUnit),
        (k.bit &&& f.enable &&& ~~~f.raw ≠ 0 → f.armed = true →
            f.raise k = { f with raw := f.raw ||| k.bit, attention := true, armed := false })
          ∧ ((k.bit &&& f.enable &&& ~~~f.raw = 0 ∨ f.armed = false) → f.raise k = { f with raw := f.raw ||| k.bit })
          ∧ k.bit = BitVec.ofNat 15 (2 ^ k.number))
    ∧ ([.frameDamaged, .spurLoss, .sectionMissing, .driveFault, .headFault, .cycleFailed, .cycleAborted, .comparatorNote,
        .headFrozen, .staleAssignment, .resultHold, .halt, .stackMismatch, .jigComplete, .profileInvalid] : List FaultKind).map
          FaultKind.number = [0, 1, 2, 3, 4, 5, 6, 7, 8, 9, 10, 11, 12, 13, 14]

/-- R24, R43, R54, R55, R79, R101, R160, R166, R168: every READ answers from the state as it stands, in the number of bytes of its
rule and with every field at its place, and changes nothing but the answer. The bytes of HEAD READ are those of R79's table; that the
cycle stage, which R104 says it reports, stands nowhere in them is the model's choice (log 28). The bytes of a latched source value
that no signed field can hold are a free value (log 9), of which nothing is said. -/
def Obligations.ReadsAnswerAndChangeNothing : Prop :=
  (∀ (s : State) (index : Half), s.ring.active = true →
      (1023 < index.toNat → exec (.holeRead index) s = .next (s.refusedWith .badIndex))
        ∧ (index.toNat ≤ 1023 → s.hole index.toNat = none →
            exec (.holeRead index) s = .next (s.doneWith (bytes16 index ++ List.replicate 40 0)))
        ∧ (∀ v, index.toNat ≤ 1023 → s.hole index.toNat = some v → ∃ d : List Byte,
            exec (.holeRead index) s = .next (s.doneWith d) ∧ d.length = 42
              ∧ halfAt d 0 = index ∧ byteAt d 2 = 0x01
              ∧ wordAt d 3 = BitVec.ofInt 32 v.x ∧ wordAt d 7 = BitVec.ofInt 32 v.t ∧ byteAt d 11 = v.face.code
              ∧ byteAt d 12 = (match v.drill with
                | some n => BitVec.ofNat 8 n
                | none => 0xFF)
              ∧ byteAt d 13 = (match v.set with
                | some n => BitVec.ofNat 8 n
                | none => 0xFF)
              ∧ wordAt d 14 = BitVec.ofInt 32 v.depth ∧ wordAt d 18 = BitVec.ofInt 32 v.stroke
              ∧ byteAt d 22 = v.state.code
              ∧ byteAt d 23 = (match v.claimant with
                | some h => headByte h
                | none => 0xFF)
              ∧ byteAt d 24 = BitVec.ofNat 8 v.attempts
              ∧ byteAt d 25 = (match v.entry with
                | some .drilled => 0x02
                | some .suspect => 0x03
                | none => 0xFF)
              ∧ (v.measured = none → byteAt d 26 = 0x00 ∧ wordAt d 27 = 0 ∧ wordAt d 31 = 0 ∧ wordAt d 35 = 0)
              ∧ (∀ m, v.measured = some m →
                byteAt d 26 = 0x01 ∧ wordAt d 27 = BitVec.ofInt 32 m.contact ∧ wordAt d 31 = BitVec.ofInt 32 m.breakthrough
                  ∧ wordAt d 35 = BitVec.ofInt 32 m.grip)
              ∧ (v.last = none → byteAt d 39 = 0xFF ∧ byteAt d 40 = 0xFF ∧ byteAt d 41 = 0x00)
              ∧ (∀ o why, v.last = some (o, why) →
                byteAt d 39 = o.code ∧ byteAt d 40 = why.code ∧ byteAt d 41 = why.comparatorByte)))
    ∧ (∀ (s : State) (h : HeadNo) (w : Head), s.ring.active = true → w = s.head h → ∃ d : List Byte,
        exec (.headRead (headByte h)) s = .next (s.doneWith d)
          ∧ byteAt d 0 = headByte h ∧ byteAt d 1 = w.state.code ∧ byteAt d 2 = w.cfg.kind.code ∧ byteAt d 3 = w.cfg.face.code
          ∧ byteAt d 4 = headByte w.cfg.group ∧ byteAt d 5 = w.cfg.startMode.code
          ∧ byteAt d 6 = (match w.faultCause with
            | some why => why.code
            | none => 0x00)
          ∧ (w.claim = none → halfAt d 7 = 0xFFFF ∧ wordAt d 9 = 0)
          ∧ (∀ c, w.claim = some c → halfAt d 7 = BitVec.ofNat 16 c.hole ∧ wordAt d 9 = BitVec.ofInt 32 c.claimX)
          ∧ byteAt d 13 = w.lastRefusal.code ∧ byteAt d 14 = BitVec.ofNat 8 w.settle
          ∧ byteAt d 15 = BitVec.ofNat 8 w.queue.length
          ∧ (w.queue.length ≤ 8 →
            d.length = 59
              ∧ (∀ k, k < 8 → halfAt d (16 + 2 * k) = (match w.queue[k]? with
                | some i => BitVec.ofNat 16 i
                | none => 0xFFFF))
              ∧ byteAt d 32 = w.carriageStatus.code ∧ byteAt d 33 = w.toolStatus.code
              ∧ wordAt d 34 = BitVec.ofInt 32 w.cfg.offsetX ∧ wordAt d 38 = BitVec.ofInt 32 w.cfg.offsetT
              ∧ wordAt d 42 = BitVec.ofInt 32 w.cfg.window ∧ wordAt d 46 = BitVec.ofInt 32 w.cfg.settleBand
              ∧ byteAt d 50 = BitVec.ofNat 8 w.cfg.settleCount
              ∧ wordAt d 51 = BitVec.ofInt 32 w.cfg.shiftLimit ∧ wordAt d 55 = BitVec.ofInt 32 w.cfg.homeBand))
    ∧ (∀ (s : State) (p part : Byte) (known : Prop), s.ring.active = true →
        (known ↔ part.toNat ≤ 0x03 ∨ part = 0x10 ∨ (0x20 ≤ part.toNat ∧ part.toNat ≤ 0x25)) →
          (31 < p.toNat → exec (.profileRead p part) s = .next (s.refusedWith .badIndex))
            ∧ (p.toNat ≤ 31 → ¬ known → exec (.profileRead p part) s = .next (s.refusedWith .badValue))
            ∧ (p.toNat ≤ 31 → known → ∃ d : List Byte,
              exec (.profileRead p part) s = .next (s.doneWith d)
                ∧ byteAt d 0 = p
                ∧ (s.profile p.toNat = none →
                  byteAt d 1 = 0x00 ∧ byteAt d 2 = 0xFF
                    ∧ d.drop 3 = List.replicate
                        (if part.toNat ≤ 0x03 then 4 else if part = 0x10 then 52 else 18) 0x00)
                ∧ (∀ q, s.profile p.toNat = some q →
                  byteAt d 1 = (match q.state with
                      | .loading => 0x01
                      | .valid => 0x02
                      | .invalid _ => 0x03)
                    ∧ byteAt d 2 = (match q.body with
                      | .drill _ _ => 0x00
                      | .set _ => 0x01)
                    ∧ byteAt d 3 = (if q.clamped then 0x01 else 0x00)
                    ∧ byteAt d 4 = (match q.state with
                      | .invalid why => why.code
                      | _ => 0x00)
                    ∧ (∀ i, i < 8 → (byteAt d 5).getLsbD i = q.body.layers.any fun e => e.1 - 1 == i)
                    ∧ (∀ k, k < 8 → (byteAt d 6).getLsbD k = q.comparators.any fun e => e.1 == k)
                    ∧ (part = 0x00 → d.length = 7)
                    ∧ (∀ f layers, q.body = .drill f layers →
                      (part = 0x01 →
                          d.length = 31 ∧ halfAt d 7 = BitVec.ofNat 16 f.spindleSpeed ∧ halfAt d 9 = BitVec.ofNat 16 f.spinUpLimit
                            ∧ wordAt d 11 = BitVec.ofInt 32 f.approachSpeed ∧ wordAt d 15 = BitVec.ofInt 32 f.acceleration
                            ∧ wordAt d 19 = BitVec.ofInt 32 f.clearance ∧ wordAt d 23 = BitVec.ofInt 32 f.rampMargin
                            ∧ wordAt d 27 = BitVec.ofInt 32 f.retractSpeed)
                        ∧ (part = 0x02 →
                          d.length = 39 ∧ halfAt d 7 = BitVec.ofNat 16 f.contactForce ∧ byteAt d 9 = BitVec.ofNat 8 f.contactCount
                            ∧ wordAt d 10 = BitVec.ofInt 32 f.contactWindow ∧ wordAt d 14 = BitVec.ofInt 32 f.exitSpeed
                            ∧ wordAt d 18 = BitVec.ofInt 32 f.exitWindow ∧ halfAt d 22 = BitVec.ofNat 16 f.breakthroughForce
                            ∧ byteAt d 24 = BitVec.ofNat 8 f.breakthroughCount ∧ wordAt d 25 = BitVec.ofInt 32 f.lateLimit
                            ∧ wordAt d 29 = BitVec.ofInt 32 f.overtravel ∧ wordAt d 33 = BitVec.ofInt 32 f.stackTolerance
                            ∧ halfAt d 37 = BitVec.ofNat 16 f.overloadForce)
                        ∧ (part = 0x03 →
                          d.length = 15 ∧ halfAt d 7 = BitVec.ofNat 16 f.chipLoadTorque ∧ byteAt d 9 = BitVec.ofNat 8 f.torqueCount
                            ∧ byteAt d 10 = BitVec.ofNat 8 f.maxPecks ∧ wordAt d 11 = BitVec.ofInt 32 f.resumeBackoff))
                    ∧ (∀ f, q.body = .set f →
                      (part = 0x01 →
                          d.length = 29 ∧ halfAt d 7 = BitVec.ofNat 16 f.feedLimit ∧ wordAt d 9 = BitVec.ofInt 32 f.advanceSpeed
                            ∧ wordAt d 13 = BitVec.ofInt 32 f.acceleration ∧ wordAt d 17 = BitVec.ofInt 32 f.clearance
                            ∧ wordAt d 21 = BitVec.ofInt 32 f.squeezeSpeed ∧ wordAt d 25 = BitVec.ofInt 32 f.retractSpeed)
                        ∧ (part = 0x02 →
                          d.length = 22 ∧ halfAt d 7 = BitVec.ofNat 16 f.contactForce ∧ byteAt d 9 = BitVec.ofNat 8 f.contactCount
                            ∧ wordAt d 10 = BitVec.ofInt 32 f.gripWindow ∧ halfAt d 14 = BitVec.ofNat 16 f.setForce
                            ∧ halfAt d 16 = BitVec.ofNat 16 f.holdForce ∧ halfAt d 18 = BitVec.ofNat 16 f.dwell
                            ∧ halfAt d 20 = BitVec.ofNat 16 f.overloadForce)
                        ∧ (part = 0x03 →
                          d.length = 20 ∧ wordAt d 7 = BitVec.ofInt 32 f.formedMin ∧ wordAt d 11 = BitVec.ofInt 32 f.formedMax
                            ∧ wordAt d 15 = BitVec.ofInt 32 f.nominalGrip
                            ∧ byteAt d 19 = (if f.acceptSuspect then 0x01 else 0x00)))
                    ∧ (part = 0x10 → d.length = 55 ∧ ∀ i, i < 6 →
                      (∀ l, Table.find q.body.layers (i + 1) = some l →
                          wordAt d (7 + 8 * i) = BitVec.ofInt 32 l.thickness ∧ wordAt d (11 + 8 * i) = BitVec.ofInt 32 l.feed)
                        ∧ (Table.find q.body.layers (i + 1) = none → wordAt d (7 + 8 * i) = 0 ∧ wordAt d (11 + 8 * i) = 0))
                    ∧ (∀ k, part.toNat = 0x20 + k →
                      d.length = 21
                        ∧ (Table.find q.comparators k = none → d.drop 7 = List.replicate 14 0x00)
                        ∧ (∀ c, Table.find q.comparators k = some c →
                          byteAt d 7 = c.source.code ∧ byteAt d 8 = c.condition.code ∧ wordAt d 9 = BitVec.ofInt 32 c.low
                            ∧ wordAt d 13 = BitVec.ofInt 32 c.high ∧ halfAt d 17 = c.mask ∧ byteAt d 19 = BitVec.ofNat 8 c.count
                            ∧ byteAt d 20 = c.action.code)))))
    ∧ (∀ (s : State) (which : Byte) (k : Half) (present : Option Point), s.ring.active = true →
        present = (if which = 0 then Table.find s.correction.staging k.toNat else s.correction.active[k.toNat]?) →
          (2 < which.toNat → exec (.correctionRead which k) s = .next (s.refusedWith .badValue))
            ∧ (which.toNat < 2 → 15 < k.toNat → exec (.correctionRead which k) s = .next (s.refusedWith .badIndex))
            ∧ (which.toNat < 2 → k.toNat ≤ 15 → ∃ d : List Byte,
              exec (.correctionRead which k) s = .next (s.doneWith d) ∧ d.length = 14
                ∧ byteAt d 0 = BitVec.ofNat 8 s.correction.active.length
                ∧ (present = none → byteAt d 1 = 0x00 ∧ wordAt d 2 = 0 ∧ wordAt d 6 = 0 ∧ wordAt d 10 = 0)
                ∧ (∀ p, present = some p →
                  byteAt d 1 = 0x01 ∧ wordAt d 2 = BitVec.ofInt 32 p.x ∧ wordAt d 6 = BitVec.ofInt 32 p.dx
                    ∧ wordAt d 10 = BitVec.ofInt 32 p.dt))
            ∧ (which = 2 → (1023 < k.toNat ∨ s.hole k.toNat = none) →
              exec (.correctionRead which k) s = .next (s.refusedWith .badIndex))
            ∧ (∀ v, which = 2 → k.toNat ≤ 1023 → s.hole k.toNat = some v → ∃ d : List Byte,
              exec (.correctionRead which k) s = .next (s.doneWith d) ∧ d.length = 17
                ∧ byteAt d 0 = BitVec.ofNat 8 s.correction.active.length
                ∧ wordAt d 1 = BitVec.ofInt 32 (correctionAt s.correction.active v.x).dx
                ∧ wordAt d 5 = BitVec.ofInt 32 (correctionAt s.correction.active v.x).dt
                ∧ wordAt d 9 = BitVec.ofInt 32 (v.x + (correctionAt s.correction.active v.x).dx)
                ∧ wordAt d 13 = BitVec.ofInt 32 (v.t + (correctionAt s.correction.active v.x).dt)))
    ∧ (∀ (s : State) (k : Byte), s.ring.active = true →
        (s.results.records.length ≤ k.toNat → exec (.resultRead k) s = .next (s.refusedWith .badIndex))
          ∧ (∀ r, s.results.records[k.toNat]? = some r →
              exec (.resultRead k) s
                = .next (s.doneWith ([BitVec.ofNat 8 s.results.records.length, if s.results.hold then 0x01 else 0x00] ++ r.bytes))))
    ∧ (∀ (r : Result) (slot : List Byte), slot = 0x01 :: r.bytes →
        slot.length = 48
          ∧ ((byteAt slot 1).getLsbD 0 = r.latch.isSome
            ∧ ((byteAt slot 1).getLsbD 1 = true ↔ ∃ g, r.group = .drill g)
            ∧ ((byteAt slot 1).getLsbD 2 = true ↔ ∃ g, r.group = .set g) ∧ (byteAt slot 1).toNat < 8)
          ∧ wordAt slot 2 = r.jigId ∧ halfAt slot 6 = BitVec.ofNat 16 r.hole ∧ byteAt slot 8 = headByte r.head
          ∧ byteAt slot 9 = r.operation.code ∧ byteAt slot 10 = r.outcome.code ∧ byteAt slot 11 = r.reason.code
          ∧ byteAt slot 12 = (match r.reason with
            | .comparator k => BitVec.ofNat 8 k
            | _ => 0x00)
          ∧ byteAt slot 13 = BitVec.ofNat 8 r.attempt ∧ halfAt slot 14 = r.sequence ∧ halfAt slot 16 = BitVec.ofNat 16 r.notes
          ∧ (r.latch = none → (slot.drop 18).take 9 = List.replicate 9 0x00)
          ∧ (∀ l, r.latch = some l →
            byteAt slot 18 = BitVec.ofNat 8 l.comparator ∧ wordAt slot 19 = BitVec.ofInt 32 l.setpoint
              ∧ (-2147483648 ≤ l.source → l.source ≤ 2147483647 → wordAt slot 23 = BitVec.ofInt 32 l.source))
          ∧ (r.group = .none → slot.drop 27 = List.replicate 21 0x00)
          ∧ (∀ g, r.group = .drill g →
            wordAt slot 27 = BitVec.ofInt 32 g.contact ∧ wordAt slot 31 = BitVec.ofInt 32 g.breakthrough
              ∧ wordAt slot 35 = BitVec.ofInt 32 g.stack ∧ halfAt slot 39 = BitVec.ofNat 16 g.peakForce
              ∧ halfAt slot 41 = BitVec.ofNat 16 g.peakTorque ∧ byteAt slot 43 = BitVec.ofNat 8 g.pecks
              ∧ halfAt slot 44 = BitVec.ofNat 16 g.overTorque ∧ slot.drop 46 = [0x00, 0x00])
          ∧ (∀ g, r.group = .set g →
            wordAt slot 27 = BitVec.ofInt 32 g.contact ∧ wordAt slot 31 = BitVec.ofInt 32 g.final
              ∧ wordAt slot 35 = BitVec.ofInt 32 g.formed ∧ halfAt slot 39 = BitVec.ofNat 16 g.peakForce
              ∧ halfAt slot 41 = BitVec.ofNat 16 g.dwell ∧ halfAt slot 43 = BitVec.ofInt 16 g.gripComp
              ∧ slot.drop 45 = [0x00, 0x00, 0x00]))
    ∧ (∀ s : State, s.ring.active = true →
        exec .faultRead s
            = .next (s.doneWith
                (bytes16 (s.faults.raw.setWidth 16) ++ bytes16 (s.faults.enable.setWidth 16)
                  ++ bytes16 ((s.faults.raw &&& s.faults.enable).setWidth 16)
                  ++ [flagByte s.faults.attention, flagByte s.faults.armed]))
          ∧ exec .counterRead s
            = .next (s.doneWith
                (bytes32 s.ring.framesTaken ++ bytes32 s.ring.damagedFrames ++ bytes32 s.ring.lostReturns
                  ++ bytes32 s.ring.staleReturns ++ bytes32 s.mgmt.refused)))

/-! ## Headline statements -/

/-- R24, R162: for every well-formed request and every tag, what the line controller sends decodes to that request: the 80 bytes
that hold its kind code at offset 0, the tag, two bytes 00h, and its arguments from offset 4 in the order and widths of the request
table, least significant byte first, then 00h. Kind 00h is no request, and a kind outside the table is unknown. The codes of
every code list of R24 but two, and of R43, R57, R79, R99 and R100: the tool modes stand in OutboundSetpointsOfCarriageAndTool, the
answer codes in HeldAnswerIsWritten. -/
def Obligations.RequestsSurviveTheWire : Prop :=
  (∀ (i : Instr) (tag : Byte), i.isRequest = true → i.wellFormed = true →
    ∃ payload, encodeRequest tag i = some payload ∧ payload.length = 80 ∧ byteAt payload 1 = tag
      ∧ byteAt payload 2 = 0 ∧ byteAt payload 3 = 0 ∧ decodeRequest payload = .request i)
    ∧ (∀ (tag : Byte) (wire : Byte → List Byte → Option (List Byte)),
        (∀ kind args, wire kind args = some ([kind, tag, 0x00, 0x00] ++ args ++ List.replicate (76 - args.length) 0x00)) →
          (∀ id, encodeRequest tag (.jigLoad id) = wire 0x10 (bytes32 id))
            ∧ encodeRequest tag .jigStart = wire 0x11 [] ∧ encodeRequest tag .jigRelease = wire 0x12 []
            ∧ (∀ i x t face, encodeRequest tag (.holeWriteA i x t face)
                = wire 0x20 (bytes16 i ++ bytes32 x ++ bytes32 t ++ [face]))
            ∧ (∀ i drill set depth stroke, encodeRequest tag (.holeWriteB i drill set depth stroke)
                = wire 0x21 (bytes16 i ++ [drill, set] ++ bytes32 depth ++ bytes32 stroke))
            ∧ (∀ i, encodeRequest tag (.holeSkip i) = wire 0x22 (bytes16 i))
            ∧ (∀ i, encodeRequest tag (.holeRead i) = wire 0x23 (bytes16 i))
            ∧ (∀ k x dx dt, encodeRequest tag (.correctionPoint k x dx dt)
                = wire 0x30 ([k] ++ bytes32 x ++ bytes32 dx ++ bytes32 dt))
            ∧ (∀ m, encodeRequest tag (.correctionCommit m) = wire 0x31 [m])
            ∧ (∀ which k, encodeRequest tag (.correctionRead which k) = wire 0x32 ([which] ++ bytes16 k))
            ∧ (∀ p kind, encodeRequest tag (.profileBegin p kind) = wire 0x40 [p, kind])
            ∧ (∀ p group values, values.length = 74 →
                encodeRequest tag (.profileFields p group values) = wire 0x41 ([p, group] ++ values))
            ∧ (∀ p i thickness feed, encodeRequest tag (.profileLayer p i thickness feed)
                = wire 0x42 ([p, i] ++ bytes32 thickness ++ bytes32 feed))
            ∧ (∀ p k source condition low high mask count action,
                encodeRequest tag (.profileComparator p k source condition low high mask count action)
                  = wire 0x43 ([p, k, source, condition] ++ bytes32 low ++ bytes32 high ++ bytes16 mask ++ [count, action]))
            ∧ (∀ p, encodeRequest tag (.profileEnd p) = wire 0x44 [p])
            ∧ (∀ p part, encodeRequest tag (.profileRead p part) = wire 0x45 [p, part])
            ∧ (∀ h kind face group ox ot w band count shift mode home,
                encodeRequest tag (.headConfig h kind face group ox ot w band count shift mode home)
                  = wire 0x50 ([h, kind, face, group] ++ bytes32 ox ++ bytes32 ot ++ bytes32 w ++ bytes32 band ++ [count]
                      ++ bytes32 shift ++ [mode] ++ bytes32 home))
            ∧ (∀ h, encodeRequest tag (.headEnable h) = wire 0x51 [h])
            ∧ (∀ h, encodeRequest tag (.headDisable h) = wire 0x52 [h])
            ∧ (∀ h, encodeRequest tag (.headClear h) = wire 0x53 [h])
            ∧ (∀ h i, encodeRequest tag (.assign h i) = wire 0x54 ([h] ++ bytes16 i))
            ∧ (∀ h, encodeRequest tag (.withdraw h) = wire 0x55 [h])
            ∧ (∀ set, encodeRequest tag (.start set) = wire 0x56 [set])
            ∧ (∀ h, encodeRequest tag (.resume h) = wire 0x57 [h])
            ∧ (∀ h, encodeRequest tag (.cancel h) = wire 0x58 [h])
            ∧ (∀ h, encodeRequest tag (.headRead h) = wire 0x59 [h])
            ∧ (∀ e id role head, encodeRequest tag (.mapWrite e id role head) = wire 0x60 [e, id, role, head])
            ∧ encodeRequest tag .mapClear = wire 0x61 []
            ∧ (∀ g d, encodeRequest tag (.groupConfig g d) = wire 0x62 ([g] ++ bytes32 d))
            ∧ (∀ limit upper lower, encodeRequest tag (.stationConfig limit upper lower)
                = wire 0x63 ([limit] ++ bytes16 upper ++ bytes16 lower))
            ∧ (∀ k, encodeRequest tag (.resultRead k) = wire 0x70 [k])
            ∧ encodeRequest tag .resultFlush = wire 0x71 [] ∧ encodeRequest tag .faultRead = wire 0x80 []
            ∧ (∀ set, encodeRequest tag (.faultClear set) = wire 0x81 (bytes16 set))
            ∧ (∀ set, encodeRequest tag (.faultEnable set) = wire 0x82 (bytes16 set))
            ∧ encodeRequest tag .attentionRearm = wire 0x83 [] ∧ encodeRequest tag .counterRead = wire 0x90 []
            ∧ encodeRequest tag .stationReset = wire 0x91 [])
    ∧ (∀ v : Half, (bytes16 v).map BitVec.toNat = [v.toNat % 256, v.toNat / 256])
    ∧ (∀ v : Word, (bytes32 v).map BitVec.toNat
        = [v.toNat % 256, v.toNat / 256 % 256, v.toNat / 65536 % 256, v.toNat / 16777216])
    ∧ (∀ payload : List Byte,
        (decodeRequest payload = .empty ↔ byteAt payload 0 = 0x00)
          ∧ (decodeRequest payload = .unknown ↔ byteAt payload 0 ∉
              ([0x00, 0x10, 0x11, 0x12, 0x20, 0x21, 0x22, 0x23, 0x30, 0x31, 0x32, 0x40, 0x41, 0x42, 0x43, 0x44, 0x45, 0x50, 0x51,
                0x52, 0x53, 0x54, 0x55, 0x56, 0x57, 0x58, 0x59, 0x60, 0x61, 0x62, 0x63, 0x70, 0x71, 0x80, 0x81, 0x82, 0x83, 0x90,
                0x91] : List Byte)))
    ∧ ([.ready, .notReady, .fault].map DriveStatus.code = [0x00, 0x01, 0x02]
        ∧ [.empty, .loading, .working, .released].map JigState.code = [0x00, 0x01, 0x02, 0x03]
        ∧ [.offline, .idle, .seeking, .settling, .armed, .engaged, .frozen, .retracting, .halted, .fault].map HeadState.code
            = [0x00, 0x01, 0x02, 0x03, 0x04, 0x05, 0x06, 0x07, 0x08, 0x09]
        ∧ [.opened, .held, .rejoin].map GateState.code = [0x00, 0x01, 0x02]
        ∧ [.drill, .set].map HeadKind.code = [0x00, 0x01]
        ∧ [.left, .right, .top].map Face.code = [0x00, 0x01, 0x02]
        ∧ [.auto, .explicit].map StartMode.code = [0x00, 0x01]
        ∧ [.approach, .seek, .cut 1, .cut 2, .cut 3, .cut 4, .cut 5, .cut 6, .exit, .overtravel, .peckOut, .peckIn,
            .retract].map DrillStage.code
            = [0x01, 0x02, 0x03, 0x04, 0x05, 0x06, 0x07, 0x08, 0x09, 0x0A, 0x0B, 0x0C, 0x0D]
        ∧ [.feedWait, .advance, .seek, .squeeze, .hold, .retract].map SetStage.code = [0x10, 0x11, 0x12, 0x13, 0x14, 0x15]
        ∧ [.none, .drill, .set].map Operation.code = [0x00, 0x01, 0x02]
        ∧ [.good, .suspect, .aborted, .interrupted, .cancelled, .failed, .notDone].map CycleOutcome.code
            = [0x00, 0x01, 0x02, 0x03, 0x04, 0x05, 0x06])
    ∧ ([.none, .noContact, .noBreakthrough, .chipPack, .overload, .shift, .spindle, .noRivet, .obstructed, .short, .long, .slip,
          .halt, .spurLoss, .sectionMissing, .driveFault, .toolNotHome, .state, .profile, .limit].map Reason.code
          = [0x00, 0x01, 0x02, 0x03, 0x04, 0x05, 0x06, 0x08, 0x09, 0x0A, 0x0B, 0x0C, 0x0D, 0x0E, 0x0F, 0x10, 0x11, 0x12, 0x13, 0x14]
        ∧ (∀ k : Nat, (Reason.comparator k).code = 0x07 ∧ (Reason.comparator k).comparatorByte = BitVec.ofNat 8 k)
        ∧ (∀ why : Reason, (∀ k, why ≠ .comparator k) → why.comparatorByte = 0x00)
        ∧ [.unknown, .badIndex, .badValue, .state, .inUse, .order, .full, .duplicate, .noHalfA, .face, .operation,
            .map].map Denial.code = [0x01, 0x02, 0x03, 0x04, 0x05, 0x06, 0x07, 0x08, 0x09, 0x0A, 0x0B, 0x0C]
        ∧ [.pending, .drilling, .drilled, .suspect, .setting, .set, .rejected, .skipped].map HoleState.code
            = [0x00, 0x01, 0x02, 0x03, 0x04, 0x05, 0x06, 0x07]
        ∧ [.none, .busy, .keepOut].map ClaimRefusal.code = [0x00, 0x01, 0x02]
        ∧ [.force, .torque, .toolPosition, .toolFollowing, .spindleSpeed, .carriageDev].map Source.code
            = [0x01, 0x02, 0x03, 0x04, 0x05, 0x06]
        ∧ [.above, .below, .inside, .outside].map Condition.code = [0x00, 0x01, 0x02, 0x03]
        ∧ [.note, .latch, .ease, .freeze, .retract].map Action.code = [0x00, 0x01, 0x02, 0x03, 0x04]
        ∧ [.noLayers, .layerGap, .exitWindow, .breakthroughForce, .overload, .formedStroke, .holdForce,
            .comparatorLimits].map InvalidReason.code = [0x01, 0x02, 0x03, 0x04, 0x05, 0x06, 0x07, 0x08]
        ∧ stageCode none = 0x00
        ∧ (∀ (c : Cycle) (d : DrillWork), c.work = .drill d → stageCode (some c) = d.stage.code)
        ∧ (∀ (c : Cycle) (w : SetWork), c.work = .set w → stageCode (some c) = w.stage.code)
        ∧ flagByte false = 0x00 ∧ flagByte true = 0x01)
    ∧ (([0x00, 0x01, 0x02, 0x03, 0x04] : List Byte).map RoleCode.ofCode
          = [some .none, some .carriage, some .tool, some .status, some .resultSlot]
        ∧ (∀ b : Byte, 4 < b.toNat → RoleCode.ofCode b = none)
        ∧ profileStateCode none = 0x00
        ∧ (∀ q : Profile,
            (q.state = .loading → profileStateCode (some q) = 0x01) ∧ (q.state = .valid → profileStateCode (some q) = 0x02)
              ∧ (∀ why, q.state = .invalid why → profileStateCode (some q) = 0x03))
        ∧ [.drilled, .suspect].map EntryState.code = [0x02, 0x03])

/-- The machine right after reset obeys every law that the statements below say each step keeps. -/
def Obligations.ResetStateObeysTheLaws : Prop :=
  State.reset.canonical = true ∧ State.reset.correctionLegal ∧ mapLegal State.reset.ring.map ∧ State.reset.queuesLegal
    ∧ State.reset.headsLegal ∧ State.reset.haltLegal ∧ State.reset.attentionLegal ∧ State.reset.keepOutLegal
    ∧ State.reset.resultsLegal

/-- R66: no step makes an assignment queue longer than 8 entries or gives it the same hole twice. -/
def Obligations.EveryStepKeepsTheQueueLaw : Prop :=
  ∀ s t : State, s.queuesLegal → step s = .next t → t.queuesLegal

/-- R59, R73: every step keeps that a head holds a claim exactly in its claiming states and a cycle exactly in ENGAGED, FROZEN
and RETRACTING, and that two heads of one group that hold claims stand at least the keep-out distance apart. -/
def Obligations.EveryStepKeepsClaimsAndKeepOut : Prop :=
  ∀ s t : State, s.headsLegal → s.keepOutLegal → step s = .next t → t.headsLegal ∧ t.keepOutLegal

/-- R64: every step keeps that no head stands in IDLE, SEEKING, SETTLING or ARMED while the halt is present, in a part that takes
events. -/
def Obligations.EveryStepKeepsTheHaltLaw : Prop :=
  ∀ s t : State, s.haltLegal → step s = .next t → t.haltLegal

/-- R167: every step keeps that while the armed flag is set no enabled kind is raw. -/
def Obligations.EveryStepKeepsTheAttentionLaw : Prop :=
  ∀ s t : State, s.attentionLegal → step s = .next t → t.attentionLegal

/-- R18, R45, R47: every step keeps the limits of the section map, the active points in strictly ascending nominal X and at most
16, and every table in its canonical form, so that equal contents are equal data. -/
def Obligations.EveryStepKeepsTheTables : Prop :=
  ∀ s t : State, mapLegal s.ring.map → s.correctionLegal → s.canonical = true → step s = .next t →
    mapLegal t.ring.map ∧ t.correctionLegal ∧ t.canonical = true

/-- R157, R158, R159: every step of a state whose heads are legal keeps the thresholds in their ranges, the hold as its test
leaves it, and room for a record of every claim standing, so that the result queue never holds more than 63 records. -/
def Obligations.EveryStepKeepsTheResultBound : Prop :=
  ∀ s t : State, s.headsLegal → s.resultsLegal → step s = .next t →
    t.headsLegal ∧ t.resultsLegal ∧ t.results.records.length ≤ 63
end

