-- ==== Sys2Proof/Laws/State.lean ====
section
/-!
SUPPORT. One lemma per field and update: what an update of the station leaves as it was, and what it writes.
-/
namespace Sys2Proof.Machine

@[simp] theorem Station.setHead_ring (s : Station) (h : HeadNo) (v : Head) : (s.setHead h v).ring = s.ring := rfl

@[simp] theorem Station.setHead_table (s : Station) (h : HeadNo) (v : Head) : (s.setHead h v).table = s.table := rfl

@[simp] theorem Station.setHead_correction (s : Station) (h : HeadNo) (v : Head) :
    (s.setHead h v).correction = s.correction := rfl

@[simp] theorem Station.setHead_keepOut (s : Station) (h : HeadNo) (v : Head) : (s.setHead h v).keepOut = s.keepOut := rfl

@[simp] theorem Station.setHead_profiles (s : Station) (h : HeadNo) (v : Head) : (s.setHead h v).profiles = s.profiles := rfl

@[simp] theorem Station.setHead_results (s : Station) (h : HeadNo) (v : Head) : (s.setHead h v).results = s.results := rfl

@[simp] theorem Station.setHead_mgmt (s : Station) (h : HeadNo) (v : Head) : (s.setHead h v).mgmt = s.mgmt := rfl

@[simp] theorem Station.setHead_faults (s : Station) (h : HeadNo) (v : Head) : (s.setHead h v).faults = s.faults := rfl

@[simp] theorem Station.modHead_ring (s : Station) (h : HeadNo) (f : Head → Head) : (s.modHead h f).ring = s.ring := rfl

@[simp] theorem Station.modHead_table (s : Station) (h : HeadNo) (f : Head → Head) : (s.modHead h f).table = s.table := rfl

@[simp] theorem Station.modHead_correction (s : Station) (h : HeadNo) (f : Head → Head) :
    (s.modHead h f).correction = s.correction := rfl

@[simp] theorem Station.modHead_keepOut (s : Station) (h : HeadNo) (f : Head → Head) :
    (s.modHead h f).keepOut = s.keepOut := rfl

@[simp] theorem Station.modHead_profiles (s : Station) (h : HeadNo) (f : Head → Head) :
    (s.modHead h f).profiles = s.profiles := rfl

@[simp] theorem Station.modHead_results (s : Station) (h : HeadNo) (f : Head → Head) :
    (s.modHead h f).results = s.results := rfl

@[simp] theorem Station.modHead_mgmt (s : Station) (h : HeadNo) (f : Head → Head) : (s.modHead h f).mgmt = s.mgmt := rfl

@[simp] theorem Station.modHead_faults (s : Station) (h : HeadNo) (f : Head → Head) : (s.modHead h f).faults = s.faults := rfl

@[simp] theorem Station.putHole_ring (s : Station) (i : Nat) (v : Hole) : (s.putHole i v).ring = s.ring := rfl

@[simp] theorem Station.putHole_correction (s : Station) (i : Nat) (v : Hole) : (s.putHole i v).correction = s.correction := rfl

@[simp] theorem Station.putHole_heads (s : Station) (i : Nat) (v : Hole) : (s.putHole i v).heads = s.heads := rfl

@[simp] theorem Station.putHole_keepOut (s : Station) (i : Nat) (v : Hole) : (s.putHole i v).keepOut = s.keepOut := rfl

@[simp] theorem Station.putHole_profiles (s : Station) (i : Nat) (v : Hole) : (s.putHole i v).profiles = s.profiles := rfl

@[simp] theorem Station.putHole_results (s : Station) (i : Nat) (v : Hole) : (s.putHole i v).results = s.results := rfl

@[simp] theorem Station.putHole_mgmt (s : Station) (i : Nat) (v : Hole) : (s.putHole i v).mgmt = s.mgmt := rfl

@[simp] theorem Station.putHole_faults (s : Station) (i : Nat) (v : Hole) : (s.putHole i v).faults = s.faults := rfl

@[simp] theorem Station.putProfile_ring (s : Station) (p : Nat) (q : Profile) : (s.putProfile p q).ring = s.ring := rfl

@[simp] theorem Station.putProfile_table (s : Station) (p : Nat) (q : Profile) : (s.putProfile p q).table = s.table := rfl

@[simp] theorem Station.putProfile_correction (s : Station) (p : Nat) (q : Profile) :
    (s.putProfile p q).correction = s.correction := rfl

@[simp] theorem Station.putProfile_heads (s : Station) (p : Nat) (q : Profile) : (s.putProfile p q).heads = s.heads := rfl

@[simp] theorem Station.putProfile_keepOut (s : Station) (p : Nat) (q : Profile) : (s.putProfile p q).keepOut = s.keepOut := rfl

@[simp] theorem Station.putProfile_results (s : Station) (p : Nat) (q : Profile) : (s.putProfile p q).results = s.results := rfl

@[simp] theorem Station.putProfile_mgmt (s : Station) (p : Nat) (q : Profile) : (s.putProfile p q).mgmt = s.mgmt := rfl

@[simp] theorem Station.putProfile_faults (s : Station) (p : Nat) (q : Profile) : (s.putProfile p q).faults = s.faults := rfl

@[simp] theorem Station.raise_ring (s : Station) (k : FaultKind) : (s.raise k).ring = s.ring := rfl

@[simp] theorem Station.raise_table (s : Station) (k : FaultKind) : (s.raise k).table = s.table := rfl

@[simp] theorem Station.raise_correction (s : Station) (k : FaultKind) : (s.raise k).correction = s.correction := rfl

@[simp] theorem Station.raise_heads (s : Station) (k : FaultKind) : (s.raise k).heads = s.heads := rfl

@[simp] theorem Station.raise_keepOut (s : Station) (k : FaultKind) : (s.raise k).keepOut = s.keepOut := rfl

@[simp] theorem Station.raise_profiles (s : Station) (k : FaultKind) : (s.raise k).profiles = s.profiles := rfl

@[simp] theorem Station.raise_results (s : Station) (k : FaultKind) : (s.raise k).results = s.results := rfl

@[simp] theorem Station.raise_mgmt (s : Station) (k : FaultKind) : (s.raise k).mgmt = s.mgmt := rfl

@[simp] theorem Station.emptyQueues_ring (s : Station) : (s.emptyQueues).ring = s.ring := rfl

@[simp] theorem Station.emptyQueues_table (s : Station) : (s.emptyQueues).table = s.table := rfl

@[simp] theorem Station.emptyQueues_correction (s : Station) : (s.emptyQueues).correction = s.correction := rfl

@[simp] theorem Station.emptyQueues_keepOut (s : Station) : (s.emptyQueues).keepOut = s.keepOut := rfl

@[simp] theorem Station.emptyQueues_profiles (s : Station) : (s.emptyQueues).profiles = s.profiles := rfl

@[simp] theorem Station.emptyQueues_results (s : Station) : (s.emptyQueues).results = s.results := rfl

@[simp] theorem Station.emptyQueues_mgmt (s : Station) : (s.emptyQueues).mgmt = s.mgmt := rfl

@[simp] theorem Station.emptyQueues_faults (s : Station) : (s.emptyQueues).faults = s.faults := rfl

@[simp] theorem Station.holdAnswer_ring (s : Station) (r : Reply) : (s.holdAnswer r).ring = s.ring := rfl

@[simp] theorem Station.holdAnswer_table (s : Station) (r : Reply) : (s.holdAnswer r).table = s.table := rfl

@[simp] theorem Station.holdAnswer_correction (s : Station) (r : Reply) : (s.holdAnswer r).correction = s.correction := rfl

@[simp] theorem Station.holdAnswer_heads (s : Station) (r : Reply) : (s.holdAnswer r).heads = s.heads := rfl

@[simp] theorem Station.holdAnswer_keepOut (s : Station) (r : Reply) : (s.holdAnswer r).keepOut = s.keepOut := rfl

@[simp] theorem Station.holdAnswer_profiles (s : Station) (r : Reply) : (s.holdAnswer r).profiles = s.profiles := rfl

@[simp] theorem Station.holdAnswer_results (s : Station) (r : Reply) : (s.holdAnswer r).results = s.results := rfl

@[simp] theorem Station.holdAnswer_faults (s : Station) (r : Reply) : (s.holdAnswer r).faults = s.faults := rfl

@[simp] theorem Station.sendSpur_table (s : Station) (frame : List Byte) : (s.sendSpur frame).table = s.table := rfl

@[simp] theorem Station.sendSpur_correction (s : Station) (frame : List Byte) :
    (s.sendSpur frame).correction = s.correction := rfl

@[simp] theorem Station.sendSpur_heads (s : Station) (frame : List Byte) : (s.sendSpur frame).heads = s.heads := rfl

@[simp] theorem Station.sendSpur_keepOut (s : Station) (frame : List Byte) : (s.sendSpur frame).keepOut = s.keepOut := rfl

@[simp] theorem Station.sendSpur_profiles (s : Station) (frame : List Byte) : (s.sendSpur frame).profiles = s.profiles := rfl

@[simp] theorem Station.sendSpur_results (s : Station) (frame : List Byte) : (s.sendSpur frame).results = s.results := rfl

@[simp] theorem Station.sendSpur_mgmt (s : Station) (frame : List Byte) : (s.sendSpur frame).mgmt = s.mgmt := rfl

@[simp] theorem Station.sendSpur_faults (s : Station) (frame : List Byte) : (s.sendSpur frame).faults = s.faults := rfl

@[simp] theorem Station.sendLine_table (s : Station) (frame : List Byte) : (s.sendLine frame).table = s.table := rfl

@[simp] theorem Station.sendLine_correction (s : Station) (frame : List Byte) :
    (s.sendLine frame).correction = s.correction := rfl

@[simp] theorem Station.sendLine_heads (s : Station) (frame : List Byte) : (s.sendLine frame).heads = s.heads := rfl

@[simp] theorem Station.sendLine_keepOut (s : Station) (frame : List Byte) : (s.sendLine frame).keepOut = s.keepOut := rfl

@[simp] theorem Station.sendLine_profiles (s : Station) (frame : List Byte) : (s.sendLine frame).profiles = s.profiles := rfl

@[simp] theorem Station.sendLine_results (s : Station) (frame : List Byte) : (s.sendLine frame).results = s.results := rfl

@[simp] theorem Station.sendLine_mgmt (s : Station) (frame : List Byte) : (s.sendLine frame).mgmt = s.mgmt := rfl

@[simp] theorem Station.sendLine_faults (s : Station) (frame : List Byte) : (s.sendLine frame).faults = s.faults := rfl

@[simp] theorem Station.countDamaged_table (s : Station) : (s.countDamaged).table = s.table := rfl

@[simp] theorem Station.countDamaged_correction (s : Station) : (s.countDamaged).correction = s.correction := rfl

@[simp] theorem Station.countDamaged_heads (s : Station) : (s.countDamaged).heads = s.heads := rfl

@[simp] theorem Station.countDamaged_keepOut (s : Station) : (s.countDamaged).keepOut = s.keepOut := rfl

@[simp] theorem Station.countDamaged_profiles (s : Station) : (s.countDamaged).profiles = s.profiles := rfl

@[simp] theorem Station.countDamaged_results (s : Station) : (s.countDamaged).results = s.results := rfl

@[simp] theorem Station.countDamaged_mgmt (s : Station) : (s.countDamaged).mgmt = s.mgmt := rfl

@[simp] theorem Station.countStale_table (s : Station) : (s.countStale).table = s.table := rfl

@[simp] theorem Station.countStale_correction (s : Station) : (s.countStale).correction = s.correction := rfl

@[simp] theorem Station.countStale_heads (s : Station) : (s.countStale).heads = s.heads := rfl

@[simp] theorem Station.countStale_keepOut (s : Station) : (s.countStale).keepOut = s.keepOut := rfl

@[simp] theorem Station.countStale_profiles (s : Station) : (s.countStale).profiles = s.profiles := rfl

@[simp] theorem Station.countStale_results (s : Station) : (s.countStale).results = s.results := rfl

@[simp] theorem Station.countStale_mgmt (s : Station) : (s.countStale).mgmt = s.mgmt := rfl

@[simp] theorem Station.countStale_faults (s : Station) : (s.countStale).faults = s.faults := rfl

@[simp] theorem Station.beginOutbound_ring (s : Station) : (s.beginOutbound).ring = s.ring := rfl

@[simp] theorem Station.beginOutbound_table (s : Station) : (s.beginOutbound).table = s.table := rfl

@[simp] theorem Station.beginOutbound_correction (s : Station) : (s.beginOutbound).correction = s.correction := rfl

@[simp] theorem Station.beginOutbound_keepOut (s : Station) : (s.beginOutbound).keepOut = s.keepOut := rfl

@[simp] theorem Station.beginOutbound_profiles (s : Station) : (s.beginOutbound).profiles = s.profiles := rfl

@[simp] theorem Station.beginOutbound_results (s : Station) : (s.beginOutbound).results = s.results := rfl

@[simp] theorem Station.beginOutbound_mgmt (s : Station) : (s.beginOutbound).mgmt = s.mgmt := rfl

@[simp] theorem Station.beginOutbound_faults (s : Station) : (s.beginOutbound).faults = s.faults := rfl

@[simp] theorem Station.assertReset_table (s : Station) : (s.assertReset).table = s.table := rfl

@[simp] theorem Station.assertReset_correction (s : Station) : (s.assertReset).correction = s.correction := rfl

@[simp] theorem Station.assertReset_heads (s : Station) : (s.assertReset).heads = s.heads := rfl

@[simp] theorem Station.assertReset_keepOut (s : Station) : (s.assertReset).keepOut = s.keepOut := rfl

@[simp] theorem Station.assertReset_profiles (s : Station) : (s.assertReset).profiles = s.profiles := rfl

@[simp] theorem Station.assertReset_results (s : Station) : (s.assertReset).results = s.results := rfl

@[simp] theorem Station.assertReset_mgmt (s : Station) : (s.assertReset).mgmt = s.mgmt := rfl

@[simp] theorem Station.assertReset_faults (s : Station) : (s.assertReset).faults = s.faults := rfl

@[simp] theorem Station.commitHole_ring (s : Station) (i : Nat) (v : Hole) : (s.commitHole i v).ring = s.ring := rfl

@[simp] theorem Station.commitHole_correction (s : Station) (i : Nat) (v : Hole) :
    (s.commitHole i v).correction = s.correction := rfl

@[simp] theorem Station.commitHole_keepOut (s : Station) (i : Nat) (v : Hole) : (s.commitHole i v).keepOut = s.keepOut := rfl

@[simp] theorem Station.commitHole_profiles (s : Station) (i : Nat) (v : Hole) : (s.commitHole i v).profiles = s.profiles := rfl

@[simp] theorem Station.commitHole_results (s : Station) (i : Nat) (v : Hole) : (s.commitHole i v).results = s.results := rfl

@[simp] theorem Station.commitHole_mgmt (s : Station) (i : Nat) (v : Hole) : (s.commitHole i v).mgmt = s.mgmt := rfl

@[simp] theorem Station.commitHole_faults (s : Station) (i : Nat) (v : Hole) : (s.commitHole i v).faults = s.faults := rfl

/-! ## What the updates write -/

@[simp] theorem Station.setHead_heads (s : Station) (h : HeadNo) (v : Head) : (s.setHead h v).heads = s.heads.set h v := rfl

@[simp] theorem Station.modHead_heads (s : Station) (h : HeadNo) (f : Head → Head) :
    (s.modHead h f).heads = s.heads.set h (f (s.head h)) := rfl

@[simp] theorem Station.raise_faults (s : Station) (k : FaultKind) : (s.raise k).faults = s.faults.raise k := rfl

@[simp] theorem Station.putHole_holes (s : Station) (i : Nat) (v : Hole) :
    (s.putHole i v).table.holes = Table.put s.table.holes i v := rfl

@[simp] theorem Station.putHole_jig (s : Station) (i : Nat) (v : Hole) : (s.putHole i v).table.jig = s.table.jig := rfl

@[simp] theorem Station.putProfile_profiles (s : Station) (p : Nat) (q : Profile) :
    (s.putProfile p q).profiles = Table.put s.profiles p q := rfl

@[simp] theorem Station.sendSpur_spurOut (s : Station) (frame : List Byte) :
    (s.sendSpur frame).ring.spurOut = s.ring.spurOut ++ [frame] := rfl

@[simp] theorem Station.sendLine_lineOut (s : Station) (frame : List Byte) :
    (s.sendLine frame).ring.lineOut = s.ring.lineOut ++ [frame] := rfl

/-! ## Four of a kind -/

@[simp] theorem Four.get_set_same {α : Type} (f : Four α) (i : Fin 4) (a : α) : (f.set i a).get i = a := by
  match i with
  | 0 => rfl
  | 1 => rfl
  | 2 => rfl
  | 3 => rfl

theorem Four.get_set_other {α : Type} (f : Four α) (i j : Fin 4) (a : α) (h : i ≠ j) : (f.set i a).get j = f.get j := by
  match i, j with
  | 0, 0 | 1, 1 | 2, 2 | 3, 3 => exact absurd rfl h
  | 0, 1 | 0, 2 | 0, 3 | 1, 0 | 1, 2 | 1, 3 | 2, 0 | 2, 1 | 2, 3 | 3, 0 | 3, 1 | 3, 2 => rfl

theorem Four.get_set {α : Type} (f : Four α) (i j : Fin 4) (a : α) :
    (f.set i a).get j = if i = j then a else f.get j := by
  by_cases h : i = j
  · subst h; simp
  · simp [h, Four.get_set_other]

@[simp] theorem Four.get_map {α β : Type} (g : α → β) (f : Four α) (i : Fin 4) : (f.map g).get i = g (f.get i) := by
  match i with
  | 0 => rfl
  | 1 => rfl
  | 2 => rfl
  | 3 => rfl

@[simp] theorem Four.set_get {α : Type} (f : Four α) (i : Fin 4) : f.set i (f.get i) = f := by
  match i with
  | 0 => rfl
  | 1 => rfl
  | 2 => rfl
  | 3 => rfl

@[simp] theorem Four.set_set {α : Type} (f : Four α) (i : Fin 4) (a b : α) : (f.set i a).set i b = f.set i b := by
  match i with
  | 0 => rfl
  | 1 => rfl
  | 2 => rfl
  | 3 => rfl

theorem Four.all_iff {α : Type} (p : α → Bool) (f : Four α) : f.all p = true ↔ ∀ i, p (f.get i) = true := by
  constructor
  · intro h i
    simp only [Four.all, Bool.and_eq_true] at h
    match i with
    | 0 => exact h.1.1.1
    | 1 => exact h.1.1.2
    | 2 => exact h.1.2
    | 3 => exact h.2
  · intro h
    simp only [Four.all, Bool.and_eq_true]
    exact ⟨⟨⟨h 0, h 1⟩, h 2⟩, h 3⟩

theorem Four.ext_get {α : Type} (f g : Four α) (h : ∀ i, f.get i = g.get i) : f = g := by
  have h0 := h 0
  have h1 := h 1
  have h2 := h 2
  have h3 := h 3
  cases f
  cases g
  simp only [Four.get] at h0 h1 h2 h3
  simp [h0, h1, h2, h3]

/-! ## Heads -/

@[simp] theorem Station.head_setHead_same (s : Station) (h : HeadNo) (v : Head) : (s.setHead h v).head h = v := by
  simp [Station.head]

@[simp] theorem Station.head_modHead_same (s : Station) (h : HeadNo) (f : Head → Head) :
    (s.modHead h f).head h = f (s.head h) := by
  simp [Station.head]

theorem Station.head_setHead (s : Station) (h j : HeadNo) (v : Head) :
    (s.setHead h v).head j = if h = j then v else s.head j := by
  simp [Station.head, Four.get_set]

theorem Station.head_modHead (s : Station) (h j : HeadNo) (f : Head → Head) :
    (s.modHead h f).head j = if h = j then f (s.head h) else s.head j := by
  simp [Station.head, Four.get_set]

@[simp] theorem Station.head_putHole (s : Station) (i : Nat) (v : Hole) (j : HeadNo) : (s.putHole i v).head j = s.head j := rfl

@[simp] theorem Station.head_putProfile (s : Station) (p : Nat) (q : Profile) (j : HeadNo) : (s.putProfile p q).head j = s.head j := rfl

@[simp] theorem Station.head_raise (s : Station) (k : FaultKind) (j : HeadNo) : (s.raise k).head j = s.head j := rfl

@[simp] theorem Station.head_holdAnswer (s : Station) (r : Reply) (j : HeadNo) : (s.holdAnswer r).head j = s.head j := rfl

@[simp] theorem Station.head_sendSpur (s : Station) (frame : List Byte) (j : HeadNo) : (s.sendSpur frame).head j = s.head j := rfl

@[simp] theorem Station.head_sendLine (s : Station) (frame : List Byte) (j : HeadNo) : (s.sendLine frame).head j = s.head j := rfl

@[simp] theorem Station.head_countDamaged (s : Station) (j : HeadNo) : (s.countDamaged).head j = s.head j := rfl

@[simp] theorem Station.head_countStale (s : Station) (j : HeadNo) : (s.countStale).head j = s.head j := rfl

@[simp] theorem Station.head_assertReset (s : Station) (j : HeadNo) : (s.assertReset).head j = s.head j := rfl

end Sys2Proof.Machine
end

