-- ==== Sys2Proof/Laws/Heads.lean ====
section
/-!
SUPPORT. What the operations on heads, holes and results leave alone, and what each does to the heads, said once per operation.
-/
namespace Sys2Proof.Machine

/-! ## Operations that change no head -/

@[simp] theorem Station.modHole_ring (s : Station) (i : Nat) (f : Hole → Hole) :
    (s.modHole i f).ring = s.ring := by
  unfold Station.modHole; split <;> rfl

@[simp] theorem Station.modHole_correction (s : Station) (i : Nat) (f : Hole → Hole) :
    (s.modHole i f).correction = s.correction := by
  unfold Station.modHole; split <;> rfl

@[simp] theorem Station.modHole_keepOut (s : Station) (i : Nat) (f : Hole → Hole) :
    (s.modHole i f).keepOut = s.keepOut := by
  unfold Station.modHole; split <;> rfl

@[simp] theorem Station.modHole_profiles (s : Station) (i : Nat) (f : Hole → Hole) :
    (s.modHole i f).profiles = s.profiles := by
  unfold Station.modHole; split <;> rfl

@[simp] theorem Station.modHole_mgmt (s : Station) (i : Nat) (f : Hole → Hole) :
    (s.modHole i f).mgmt = s.mgmt := by
  unfold Station.modHole; split <;> rfl

@[simp] theorem Station.modHole_heads (s : Station) (i : Nat) (f : Hole → Hole) :
    (s.modHole i f).heads = s.heads := by
  unfold Station.modHole; split <;> rfl

@[simp] theorem Station.modHole_results (s : Station) (i : Nat) (f : Hole → Hole) :
    (s.modHole i f).results = s.results := by
  unfold Station.modHole; split <;> rfl

@[simp] theorem Station.modHole_faults (s : Station) (i : Nat) (f : Hole → Hole) :
    (s.modHole i f).faults = s.faults := by
  unfold Station.modHole; split <;> rfl

@[simp] theorem Station.holdTest_ring (s : Station) :
    (s.holdTest).ring = s.ring := by
  unfold Station.holdTest; split
  · split <;> rfl
  · split <;> rfl

@[simp] theorem Station.holdTest_correction (s : Station) :
    (s.holdTest).correction = s.correction := by
  unfold Station.holdTest; split
  · split <;> rfl
  · split <;> rfl

@[simp] theorem Station.holdTest_keepOut (s : Station) :
    (s.holdTest).keepOut = s.keepOut := by
  unfold Station.holdTest; split
  · split <;> rfl
  · split <;> rfl

@[simp] theorem Station.holdTest_profiles (s : Station) :
    (s.holdTest).profiles = s.profiles := by
  unfold Station.holdTest; split
  · split <;> rfl
  · split <;> rfl

@[simp] theorem Station.holdTest_mgmt (s : Station) :
    (s.holdTest).mgmt = s.mgmt := by
  unfold Station.holdTest; split
  · split <;> rfl
  · split <;> rfl

@[simp] theorem Station.holdTest_heads (s : Station) :
    (s.holdTest).heads = s.heads := by
  unfold Station.holdTest; split
  · split <;> rfl
  · split <;> rfl

@[simp] theorem Station.holdTest_table (s : Station) :
    (s.holdTest).table = s.table := by
  unfold Station.holdTest; split
  · split <;> rfl
  · split <;> rfl

@[simp] theorem Station.join_ring (s : Station) (r : Result) : (s.join r).ring = s.ring := by
  simp [Station.join]

@[simp] theorem Station.join_correction (s : Station) (r : Result) :
    (s.join r).correction = s.correction := by
  simp [Station.join]

@[simp] theorem Station.join_keepOut (s : Station) (r : Result) : (s.join r).keepOut = s.keepOut := by
  simp [Station.join]

@[simp] theorem Station.join_profiles (s : Station) (r : Result) : (s.join r).profiles = s.profiles := by
  simp [Station.join]

@[simp] theorem Station.join_mgmt (s : Station) (r : Result) : (s.join r).mgmt = s.mgmt := by
  simp [Station.join]

@[simp] theorem Station.join_heads (s : Station) (r : Result) : (s.join r).heads = s.heads := by
  simp [Station.join]

@[simp] theorem Station.join_table (s : Station) (r : Result) : (s.join r).table = s.table := by
  simp [Station.join]

@[simp] theorem Station.raiseAll_ring (s : Station) (ks : List FaultKind) : (s.raiseAll ks).ring = s.ring := by
  induction ks generalizing s with
  | nil => rfl
  | cons k ks ih => exact ih (s.raise k)

@[simp] theorem Station.raiseAll_correction (s : Station) (ks : List FaultKind) : (s.raiseAll ks).correction = s.correction := by
  induction ks generalizing s with
  | nil => rfl
  | cons k ks ih => exact ih (s.raise k)

@[simp] theorem Station.raiseAll_keepOut (s : Station) (ks : List FaultKind) : (s.raiseAll ks).keepOut = s.keepOut := by
  induction ks generalizing s with
  | nil => rfl
  | cons k ks ih => exact ih (s.raise k)

@[simp] theorem Station.raiseAll_profiles (s : Station) (ks : List FaultKind) : (s.raiseAll ks).profiles = s.profiles := by
  induction ks generalizing s with
  | nil => rfl
  | cons k ks ih => exact ih (s.raise k)

@[simp] theorem Station.raiseAll_mgmt (s : Station) (ks : List FaultKind) : (s.raiseAll ks).mgmt = s.mgmt := by
  induction ks generalizing s with
  | nil => rfl
  | cons k ks ih => exact ih (s.raise k)

@[simp] theorem Station.raiseAll_heads (s : Station) (ks : List FaultKind) : (s.raiseAll ks).heads = s.heads := by
  induction ks generalizing s with
  | nil => rfl
  | cons k ks ih => exact ih (s.raise k)

@[simp] theorem Station.raiseAll_table (s : Station) (ks : List FaultKind) : (s.raiseAll ks).table = s.table := by
  induction ks generalizing s with
  | nil => rfl
  | cons k ks ih => exact ih (s.raise k)

@[simp] theorem Station.raiseAll_results (s : Station) (ks : List FaultKind) : (s.raiseAll ks).results = s.results := by
  induction ks generalizing s with
  | nil => rfl
  | cons k ks ih => exact ih (s.raise k)

@[simp] theorem Station.completenessTest_ring (s : Station) :
    (s.completenessTest).ring = s.ring := by
  unfold Station.completenessTest; split <;> rfl

@[simp] theorem Station.completenessTest_correction (s : Station) :
    (s.completenessTest).correction = s.correction := by
  unfold Station.completenessTest; split <;> rfl

@[simp] theorem Station.completenessTest_keepOut (s : Station) :
    (s.completenessTest).keepOut = s.keepOut := by
  unfold Station.completenessTest; split <;> rfl

@[simp] theorem Station.completenessTest_profiles (s : Station) :
    (s.completenessTest).profiles = s.profiles := by
  unfold Station.completenessTest; split <;> rfl

@[simp] theorem Station.completenessTest_mgmt (s : Station) :
    (s.completenessTest).mgmt = s.mgmt := by
  unfold Station.completenessTest; split <;> rfl

@[simp] theorem Station.completenessTest_heads (s : Station) :
    (s.completenessTest).heads = s.heads := by
  unfold Station.completenessTest; split <;> rfl

@[simp] theorem Station.completenessTest_results (s : Station) :
    (s.completenessTest).results = s.results := by
  unfold Station.completenessTest; split <;> rfl

@[simp] theorem Station.completenessIfWorking_ring (s : Station) :
    (s.completenessIfWorking).ring = s.ring := by
  unfold Station.completenessIfWorking; split <;> simp

@[simp] theorem Station.completenessIfWorking_correction (s : Station) :
    (s.completenessIfWorking).correction = s.correction := by
  unfold Station.completenessIfWorking; split <;> simp

@[simp] theorem Station.completenessIfWorking_keepOut (s : Station) :
    (s.completenessIfWorking).keepOut = s.keepOut := by
  unfold Station.completenessIfWorking; split <;> simp

@[simp] theorem Station.completenessIfWorking_profiles (s : Station) :
    (s.completenessIfWorking).profiles = s.profiles := by
  unfold Station.completenessIfWorking; split <;> simp

@[simp] theorem Station.completenessIfWorking_mgmt (s : Station) :
    (s.completenessIfWorking).mgmt = s.mgmt := by
  unfold Station.completenessIfWorking; split <;> simp

@[simp] theorem Station.completenessIfWorking_heads (s : Station) :
    (s.completenessIfWorking).heads = s.heads := by
  unfold Station.completenessIfWorking; split <;> simp

@[simp] theorem Station.completenessIfWorking_results (s : Station) :
    (s.completenessIfWorking).results = s.results := by
  unfold Station.completenessIfWorking; split <;> simp

@[simp] theorem Station.head_modHole (s : Station) (i : Nat) (f : Hole → Hole) (j : HeadNo) : (s.modHole i f).head j = s.head j := by
  simp [Station.head]

@[simp] theorem Station.head_holdTest (s : Station) (j : HeadNo) : (s.holdTest).head j = s.head j := by
  simp [Station.head]

@[simp] theorem Station.head_join (s : Station) (r : Result) (j : HeadNo) : (s.join r).head j = s.head j := by
  simp [Station.head]

@[simp] theorem Station.head_raiseAll (s : Station) (ks : List FaultKind) (j : HeadNo) : (s.raiseAll ks).head j = s.head j := by
  simp [Station.head]

@[simp] theorem Station.head_completenessTest (s : Station) (j : HeadNo) : (s.completenessTest).head j = s.head j := by
  simp [Station.head]

@[simp] theorem Station.head_completenessIfWorking (s : Station) (j : HeadNo) : (s.completenessIfWorking).head j = s.head j := by
  simp [Station.head]

/-! ## Operations on one head -/

@[simp] theorem Station.releaseClaim_ring (s : Station) (h : HeadNo) :
    (s.releaseClaim h).ring = s.ring := by
  unfold Station.releaseClaim; split <;> simp

@[simp] theorem Station.releaseClaim_correction (s : Station) (h : HeadNo) :
    (s.releaseClaim h).correction = s.correction := by
  unfold Station.releaseClaim; split <;> simp

@[simp] theorem Station.releaseClaim_keepOut (s : Station) (h : HeadNo) :
    (s.releaseClaim h).keepOut = s.keepOut := by
  unfold Station.releaseClaim; split <;> simp

@[simp] theorem Station.releaseClaim_profiles (s : Station) (h : HeadNo) :
    (s.releaseClaim h).profiles = s.profiles := by
  unfold Station.releaseClaim; split <;> simp

@[simp] theorem Station.releaseClaim_mgmt (s : Station) (h : HeadNo) :
    (s.releaseClaim h).mgmt = s.mgmt := by
  unfold Station.releaseClaim; split <;> simp

@[simp] theorem Station.releaseClaim_results (s : Station) (h : HeadNo) :
    (s.releaseClaim h).results = s.results := by
  unfold Station.releaseClaim; split <;> simp

@[simp] theorem Station.releaseClaim_faults (s : Station) (h : HeadNo) :
    (s.releaseClaim h).faults = s.faults := by
  unfold Station.releaseClaim; split <;> simp

/-- R73: releasing a claim empties the head's claim record and changes no other head. -/
theorem Station.head_releaseClaim (s : Station) (h j : HeadNo) :
    (s.releaseClaim h).head j = if h = j then { s.head h with claim := none } else s.head j := by
  unfold Station.releaseClaim
  split
  · next hc =>
    split
    · next hj => subst hj; rw [← hc]
    · rfl
  · simp only [Station.head_modHead, Station.head_modHole]

@[simp] theorem Station.concludeCycle_ring (s : Station) (h : HeadNo) (c : Cycle) (o : CycleOutcome) (why : Reason) :
    (s.concludeCycle h c o why).ring = s.ring := by
  simp [Station.concludeCycle]

@[simp] theorem Station.concludeCycle_correction (s : Station) (h : HeadNo) (c : Cycle) (o : CycleOutcome) (why : Reason) :
    (s.concludeCycle h c o why).correction = s.correction := by
  simp [Station.concludeCycle]

@[simp] theorem Station.concludeCycle_keepOut (s : Station) (h : HeadNo) (c : Cycle) (o : CycleOutcome) (why : Reason) :
    (s.concludeCycle h c o why).keepOut = s.keepOut := by
  simp [Station.concludeCycle]

@[simp] theorem Station.concludeCycle_profiles (s : Station) (h : HeadNo) (c : Cycle) (o : CycleOutcome) (why : Reason) :
    (s.concludeCycle h c o why).profiles = s.profiles := by
  simp [Station.concludeCycle]

@[simp] theorem Station.concludeCycle_mgmt (s : Station) (h : HeadNo) (c : Cycle) (o : CycleOutcome) (why : Reason) :
    (s.concludeCycle h c o why).mgmt = s.mgmt := by
  simp [Station.concludeCycle]

/-- R78: what a cycle end does to the head, before its next state. -/
theorem Station.head_concludeCycle (s : Station) (h j : HeadNo) (c : Cycle) (o : CycleOutcome) (why : Reason) :
    (s.concludeCycle h c o why).head j = if h = j then Head.cycleEnded c (s.head h) else s.head j := by
  simp only [Station.concludeCycle, Station.head_completenessIfWorking, Station.head_raiseAll, Station.head_join,
    Station.head_modHead, Station.head_modHole, Station.head_releaseClaim, if_true]
  split <;> rfl

@[simp] theorem Station.failCycle_ring (s : Station) (h : HeadNo) (cause : Reason) :
    (s.failCycle h cause).ring = s.ring := by
  unfold Station.failCycle; split <;> simp

@[simp] theorem Station.failCycle_correction (s : Station) (h : HeadNo) (cause : Reason) :
    (s.failCycle h cause).correction = s.correction := by
  unfold Station.failCycle; split <;> simp

@[simp] theorem Station.failCycle_keepOut (s : Station) (h : HeadNo) (cause : Reason) :
    (s.failCycle h cause).keepOut = s.keepOut := by
  unfold Station.failCycle; split <;> simp

@[simp] theorem Station.failCycle_profiles (s : Station) (h : HeadNo) (cause : Reason) :
    (s.failCycle h cause).profiles = s.profiles := by
  unfold Station.failCycle; split <;> simp

@[simp] theorem Station.failCycle_mgmt (s : Station) (h : HeadNo) (cause : Reason) :
    (s.failCycle h cause).mgmt = s.mgmt := by
  unfold Station.failCycle; split <;> simp

/-- R63: what a cycle cut off by a cause leaves of a head. -/
def Head.cutOff (w : Head) : Head :=
  match w.engine with
  | none => w
  | some c => Head.cycleEnded c w

theorem Station.head_failCycle (s : Station) (h j : HeadNo) (cause : Reason) :
    (s.failCycle h cause).head j = if h = j then (s.head h).cutOff else s.head j := by
  unfold Station.failCycle Head.cutOff
  cases (s.head h).engine with
  | none =>
    dsimp only
    split
    · next hj => rw [hj]
    · rfl
  | some c => exact s.head_concludeCycle h j c .failed cause

/-- R63: a head after a cause has reached it in service. -/
def Head.faulted (cause : Reason) (w : Head) : Head :=
  { w.cutOff with claim := none, settle := 0, gate := w.cutOff.gate.fault, state := .fault, faultCause := some cause }

@[simp] theorem Station.toFault_ring (s : Station) (h : HeadNo) (cause : Reason) :
    (s.toFault h cause).ring = s.ring := by
  unfold Station.toFault; split <;> simp

@[simp] theorem Station.toFault_correction (s : Station) (h : HeadNo) (cause : Reason) :
    (s.toFault h cause).correction = s.correction := by
  unfold Station.toFault; split <;> simp

@[simp] theorem Station.toFault_keepOut (s : Station) (h : HeadNo) (cause : Reason) :
    (s.toFault h cause).keepOut = s.keepOut := by
  unfold Station.toFault; split <;> simp

@[simp] theorem Station.toFault_profiles (s : Station) (h : HeadNo) (cause : Reason) :
    (s.toFault h cause).profiles = s.profiles := by
  unfold Station.toFault; split <;> simp

@[simp] theorem Station.toFault_mgmt (s : Station) (h : HeadNo) (cause : Reason) :
    (s.toFault h cause).mgmt = s.mgmt := by
  unfold Station.toFault; split <;> simp

/-- R63: a cause reaches one head, and changes it only in service. -/
theorem Station.head_toFault (s : Station) (h j : HeadNo) (cause : Reason) :
    (s.toFault h cause).head j =
      if h = j ∧ (s.head h).state.inService = true then (s.head h).faulted cause else s.head j := by
  unfold Station.toFault
  split
  · next hs =>
    simp only [Station.head_raise, Station.head_modHead, Station.head_releaseClaim, Station.head_failCycle, if_true, hs,
      and_true]
    split <;> simp_all [Head.faulted]
  · next hs => simp [hs]

@[simp] theorem Station.finishCycle_ring (s : Station) (h : HeadNo) :
    (s.finishCycle h).ring = s.ring := by
  unfold Station.finishCycle; split
  · rfl
  · split
    · rfl
    · simp

@[simp] theorem Station.finishCycle_correction (s : Station) (h : HeadNo) :
    (s.finishCycle h).correction = s.correction := by
  unfold Station.finishCycle; split
  · rfl
  · split
    · rfl
    · simp

@[simp] theorem Station.finishCycle_keepOut (s : Station) (h : HeadNo) :
    (s.finishCycle h).keepOut = s.keepOut := by
  unfold Station.finishCycle; split
  · rfl
  · split
    · rfl
    · simp

@[simp] theorem Station.finishCycle_profiles (s : Station) (h : HeadNo) :
    (s.finishCycle h).profiles = s.profiles := by
  unfold Station.finishCycle; split
  · rfl
  · split
    · rfl
    · simp

@[simp] theorem Station.finishCycle_mgmt (s : Station) (h : HeadNo) :
    (s.finishCycle h).mgmt = s.mgmt := by
  unfold Station.finishCycle; split
  · rfl
  · split
    · rfl
    · simp

/-- R78: a head after its cycle has been confirmed home, with the next state that the station gives it. -/
def Head.finished (c : Cycle) (next : HeadState) (w : Head) : Head :=
  { Head.cycleEnded c w with gate := w.gate.letGo, state := next }

/-- R78: the cycle end of one head. -/
theorem Station.head_finishCycle (s : Station) (h j : HeadNo) (c : Cycle) (o : CycleOutcome) (why : Reason)
    (hc : (s.head h).engine = some c) (hd : c.decision = some (o, why)) :
    (s.finishCycle h).head j =
      if h = j then (s.head h).finished c (s.afterCycle o ((s.head h).queue.erase c.hole)) else s.head j := by
  unfold Station.finishCycle
  simp only [hc, hd, Station.head_modHead, Station.head_concludeCycle, if_true]
  split
  · simp only [Head.finished, Head.cycleEnded, Station.afterCycle, Station.concludeCycle_ring]
  · rfl

/-- A head without a cycle, or with one that has no outcome, does not end one. -/
theorem Station.finishCycle_none (s : Station) (h : HeadNo)
    (hc : ∀ c, (s.head h).engine = some c → c.decision = none) : s.finishCycle h = s := by
  unfold Station.finishCycle
  split
  · rfl
  · next c hc' => rw [hc c hc']

/-- R64, R152: a head when the halt becomes present. -/
def Head.halted (w : Head) : Head :=
  match w.state with
  | .idle | .seeking => { w with state := .halted }
  | .settling | .armed => { w with claim := none, settle := 0, state := .halted }
  | .engaged | .frozen =>
    { w with
      state := .retracting
      engine := w.engine.map fun c => ({ c with decision := some (.interrupted, .halt) } : Cycle).rampedRetract }
  | .offline | .retracting | .halted | .fault => w

@[simp] theorem Station.haltHead_ring (s : Station) (h : HeadNo) :
    (s.haltHead h).ring = s.ring := by
  unfold Station.haltHead; split <;> simp

@[simp] theorem Station.haltHead_correction (s : Station) (h : HeadNo) :
    (s.haltHead h).correction = s.correction := by
  unfold Station.haltHead; split <;> simp

@[simp] theorem Station.haltHead_keepOut (s : Station) (h : HeadNo) :
    (s.haltHead h).keepOut = s.keepOut := by
  unfold Station.haltHead; split <;> simp

@[simp] theorem Station.haltHead_profiles (s : Station) (h : HeadNo) :
    (s.haltHead h).profiles = s.profiles := by
  unfold Station.haltHead; split <;> simp

@[simp] theorem Station.haltHead_mgmt (s : Station) (h : HeadNo) :
    (s.haltHead h).mgmt = s.mgmt := by
  unfold Station.haltHead; split <;> simp

@[simp] theorem Station.haltHead_results (s : Station) (h : HeadNo) :
    (s.haltHead h).results = s.results := by
  unfold Station.haltHead; split <;> simp

@[simp] theorem Station.haltHead_faults (s : Station) (h : HeadNo) :
    (s.haltHead h).faults = s.faults := by
  unfold Station.haltHead; split <;> simp

theorem Station.head_haltHead (s : Station) (h j : HeadNo) :
    (s.haltHead h).head j = if h = j then (s.head h).halted else s.head j := by
  unfold Station.haltHead Head.halted
  by_cases hj : h = j
  · subst hj
    cases hst : (s.head h).state <;> simp [hst, Station.head_releaseClaim]
  · cases (s.head h).state <;> simp [Station.head_modHead, Station.head_releaseClaim, hj]

/-- One event that reaches every head acts on each by itself, when each head's part changes that head alone. -/
theorem Station.head_eachHead (f : HeadNo → Station → Station) (g : Head → Head)
    (hf : ∀ s h j, (f h s).head j = if h = j then g (s.head h) else s.head j) (s : Station) (j : HeadNo) :
    (s.eachHead f).head j = g (s.head j) := by
  unfold Station.eachHead
  simp only [hf]
  match j with
  | 0 => simp
  | 1 => simp
  | 2 => simp
  | 3 => simp

theorem Station.head_haltArrives (s : Station) (j : HeadNo) : s.haltArrives.head j = (s.head j).halted := by
  unfold Station.haltArrives
  rw [Station.head_eachHead _ Head.halted (fun s h j => s.head_haltHead h j)]
  simp

@[simp] theorem Station.haltArrives_ring (s : Station) :
    (s.haltArrives).ring = s.ring := by
  simp [Station.haltArrives, Station.eachHead]

@[simp] theorem Station.haltArrives_correction (s : Station) :
    (s.haltArrives).correction = s.correction := by
  simp [Station.haltArrives, Station.eachHead]

@[simp] theorem Station.haltArrives_keepOut (s : Station) :
    (s.haltArrives).keepOut = s.keepOut := by
  simp [Station.haltArrives, Station.eachHead]

@[simp] theorem Station.haltArrives_profiles (s : Station) :
    (s.haltArrives).profiles = s.profiles := by
  simp [Station.haltArrives, Station.eachHead]

@[simp] theorem Station.haltArrives_mgmt (s : Station) :
    (s.haltArrives).mgmt = s.mgmt := by
  simp [Station.haltArrives, Station.eachHead]

@[simp] theorem Station.haltArrives_results (s : Station) :
    (s.haltArrives).results = s.results := by
  simp [Station.haltArrives, Station.eachHead]

/-! ## Queue evaluation, settling and engagement -/

@[simp] theorem Station.idleIfEmpty_ring (s : Station) (h : HeadNo) :
    (s.idleIfEmpty h).ring = s.ring := by
  unfold Station.idleIfEmpty; dsimp only; split <;> simp

@[simp] theorem Station.idleIfEmpty_correction (s : Station) (h : HeadNo) :
    (s.idleIfEmpty h).correction = s.correction := by
  unfold Station.idleIfEmpty; dsimp only; split <;> simp

@[simp] theorem Station.idleIfEmpty_keepOut (s : Station) (h : HeadNo) :
    (s.idleIfEmpty h).keepOut = s.keepOut := by
  unfold Station.idleIfEmpty; dsimp only; split <;> simp

@[simp] theorem Station.idleIfEmpty_profiles (s : Station) (h : HeadNo) :
    (s.idleIfEmpty h).profiles = s.profiles := by
  unfold Station.idleIfEmpty; dsimp only; split <;> simp

@[simp] theorem Station.idleIfEmpty_mgmt (s : Station) (h : HeadNo) :
    (s.idleIfEmpty h).mgmt = s.mgmt := by
  unfold Station.idleIfEmpty; dsimp only; split <;> simp

@[simp] theorem Station.idleIfEmpty_table (s : Station) (h : HeadNo) :
    (s.idleIfEmpty h).table = s.table := by
  unfold Station.idleIfEmpty; dsimp only; split <;> simp

@[simp] theorem Station.idleIfEmpty_results (s : Station) (h : HeadNo) :
    (s.idleIfEmpty h).results = s.results := by
  unfold Station.idleIfEmpty; dsimp only; split <;> simp

@[simp] theorem Station.idleIfEmpty_faults (s : Station) (h : HeadNo) :
    (s.idleIfEmpty h).faults = s.faults := by
  unfold Station.idleIfEmpty; dsimp only; split <;> simp

/-- R65: a SEEKING head whose queue is empty, with the state it takes. -/
def Head.idled (next : HeadState) (w : Head) : Head := if w.state = .seeking ∧ w.queue = [] then { w with state := next } else w

theorem Station.head_idleIfEmpty (s : Station) (h j : HeadNo) :
    (s.idleIfEmpty h).head j = if h = j then (s.head h).idled (s.rest .idle) else s.head j := by
  unfold Station.idleIfEmpty Head.idled
  dsimp only
  split
  · simp only [Station.head_setHead]
  · split <;> simp_all

@[simp] theorem Station.discard_ring (s : Station) (h : HeadNo) (i : Nat) (why : Reason) :
    (s.discard h i why).ring = s.ring := by
  simp [Station.discard]

@[simp] theorem Station.discard_correction (s : Station) (h : HeadNo) (i : Nat) (why : Reason) :
    (s.discard h i why).correction = s.correction := by
  simp [Station.discard]

@[simp] theorem Station.discard_keepOut (s : Station) (h : HeadNo) (i : Nat) (why : Reason) :
    (s.discard h i why).keepOut = s.keepOut := by
  simp [Station.discard]

@[simp] theorem Station.discard_profiles (s : Station) (h : HeadNo) (i : Nat) (why : Reason) :
    (s.discard h i why).profiles = s.profiles := by
  simp [Station.discard]

@[simp] theorem Station.discard_mgmt (s : Station) (h : HeadNo) (i : Nat) (why : Reason) :
    (s.discard h i why).mgmt = s.mgmt := by
  simp [Station.discard]

@[simp] theorem Station.discard_table (s : Station) (h : HeadNo) (i : Nat) (why : Reason) :
    (s.discard h i why).table = s.table := by
  simp [Station.discard]

/-- R70: a stale discard takes the queue head off one queue. -/
theorem Station.head_discard (s : Station) (h j : HeadNo) (i : Nat) (why : Reason) :
    (s.discard h i why).head j =
      if h = j then ({ s.head h with queue := (s.head h).queue.tail } : Head).idled (s.rest .idle) else s.head j := by
  simp only [Station.discard, Station.head_idleIfEmpty, Station.head_raise, Station.head_join, Station.head_modHead, if_true,
    Station.rest, Station.raise_ring, Station.join_ring, Station.modHead_ring]
  split <;> rfl

@[simp] theorem Station.grant_ring (s : Station) (h : HeadNo) (i : Nat) (v : Hole) : (s.grant h i v).ring = s.ring := rfl

@[simp] theorem Station.grant_correction (s : Station) (h : HeadNo) (i : Nat) (v : Hole) :
    (s.grant h i v).correction = s.correction := rfl

@[simp] theorem Station.grant_keepOut (s : Station) (h : HeadNo) (i : Nat) (v : Hole) :
    (s.grant h i v).keepOut = s.keepOut := rfl

@[simp] theorem Station.grant_profiles (s : Station) (h : HeadNo) (i : Nat) (v : Hole) :
    (s.grant h i v).profiles = s.profiles := rfl

@[simp] theorem Station.grant_mgmt (s : Station) (h : HeadNo) (i : Nat) (v : Hole) : (s.grant h i v).mgmt = s.mgmt := rfl

@[simp] theorem Station.grant_results (s : Station) (h : HeadNo) (i : Nat) (v : Hole) :
    (s.grant h i v).results = s.results := rfl

@[simp] theorem Station.grant_faults (s : Station) (h : HeadNo) (i : Nat) (v : Hole) : (s.grant h i v).faults = s.faults := rfl

/-- R72, R73: a granted claim. -/
theorem Station.head_grant (s : Station) (h j : HeadNo) (i : Nat) (v : Hole) :
    (s.grant h i v).head j =
      if h = j then
        { s.head h with
          state := .settling, settle := 0, lastRefusal := .none
          claim := some { hole := i, claimX := (s.correctedPosition v).x } }
      else s.head j := by
  simp only [Station.grant, Station.head_modHead, Station.head_putHole]

@[simp] theorem Station.claimRequest_ring (s : Station) (h : HeadNo) (i : Nat) (v : Hole) :
    (s.claimRequest h i v).ring = s.ring := by
  unfold Station.claimRequest; split <;> simp

@[simp] theorem Station.claimRequest_correction (s : Station) (h : HeadNo) (i : Nat) (v : Hole) :
    (s.claimRequest h i v).correction = s.correction := by
  unfold Station.claimRequest; split <;> simp

@[simp] theorem Station.claimRequest_keepOut (s : Station) (h : HeadNo) (i : Nat) (v : Hole) :
    (s.claimRequest h i v).keepOut = s.keepOut := by
  unfold Station.claimRequest; split <;> simp

@[simp] theorem Station.claimRequest_profiles (s : Station) (h : HeadNo) (i : Nat) (v : Hole) :
    (s.claimRequest h i v).profiles = s.profiles := by
  unfold Station.claimRequest; split <;> simp

@[simp] theorem Station.claimRequest_mgmt (s : Station) (h : HeadNo) (i : Nat) (v : Hole) :
    (s.claimRequest h i v).mgmt = s.mgmt := by
  unfold Station.claimRequest; split <;> simp

@[simp] theorem Station.claimRequest_results (s : Station) (h : HeadNo) (i : Nat) (v : Hole) :
    (s.claimRequest h i v).results = s.results := by
  unfold Station.claimRequest; split <;> simp

@[simp] theorem Station.claimRequest_faults (s : Station) (h : HeadNo) (i : Nat) (v : Hole) :
    (s.claimRequest h i v).faults = s.faults := by
  unfold Station.claimRequest; split <;> simp

@[simp] theorem Station.engageOn_ring (s : Station) (h : HeadNo) (i : Nat) (v : Hole) :
    (s.engageOn h i v).ring = s.ring := by
  unfold Station.engageOn; dsimp only; split
  · rfl
  · split <;> simp

@[simp] theorem Station.engageOn_correction (s : Station) (h : HeadNo) (i : Nat) (v : Hole) :
    (s.engageOn h i v).correction = s.correction := by
  unfold Station.engageOn; dsimp only; split
  · rfl
  · split <;> simp

@[simp] theorem Station.engageOn_keepOut (s : Station) (h : HeadNo) (i : Nat) (v : Hole) :
    (s.engageOn h i v).keepOut = s.keepOut := by
  unfold Station.engageOn; dsimp only; split
  · rfl
  · split <;> simp

@[simp] theorem Station.engageOn_profiles (s : Station) (h : HeadNo) (i : Nat) (v : Hole) :
    (s.engageOn h i v).profiles = s.profiles := by
  unfold Station.engageOn; dsimp only; split
  · rfl
  · split <;> simp

@[simp] theorem Station.engageOn_mgmt (s : Station) (h : HeadNo) (i : Nat) (v : Hole) :
    (s.engageOn h i v).mgmt = s.mgmt := by
  unfold Station.engageOn; dsimp only; split
  · rfl
  · split <;> simp

@[simp] theorem Station.engageOn_results (s : Station) (h : HeadNo) (i : Nat) (v : Hole) :
    (s.engageOn h i v).results = s.results := by
  unfold Station.engageOn; dsimp only; split
  · rfl
  · split <;> simp

@[simp] theorem Station.engageOn_faults (s : Station) (h : HeadNo) (i : Nat) (v : Hole) :
    (s.engageOn h i v).faults = s.faults := by
  unfold Station.engageOn; dsimp only; split
  · rfl
  · split <;> simp

/-- R77: engagement changes one head alone, and keeps its configuration, queue and claim. -/
theorem Station.head_engageOn (s : Station) (h j : HeadNo) (i : Nat) (v : Hole) :
    (s.engageOn h i v).head j = s.head j ∨
      (h = j ∧ ∃ c b, (s.engageOn h i v).head j =
        { s.head h with state := .engaged, gate := (s.head h).gate.engage, engine := some c, bank := b }) := by
  unfold Station.engageOn
  dsimp only
  split
  · exact Or.inl rfl
  · next q _ =>
    split
    · exact Or.inl rfl
    · next c _ =>
      by_cases hj : h = j
      · refine Or.inr ⟨hj, c, .copy q.comparators, ?_⟩
        simp [hj]
      · exact Or.inl (by simp [Station.head_modHead, hj])

theorem Station.onClaimed_cases (s : Station) (h : HeadNo) (f : Nat → Hole → Station → Station) :
    s.onClaimed h f = s ∨ ∃ i v, s.onClaimed h f = f i v s := by
  unfold Station.onClaimed
  split
  · exact Or.inl rfl
  · split
    · exact Or.inl rfl
    · exact Or.inr ⟨_, _, rfl⟩

theorem Station.head_engage (s : Station) (h j : HeadNo) :
    (s.engage h).head j = s.head j ∨
      (h = j ∧ ∃ c b, (s.engage h).head j =
        { s.head h with state := .engaged, gate := (s.head h).gate.engage, engine := some c, bank := b }) := by
  unfold Station.engage
  rcases s.onClaimed_cases h (Station.engageOn h) with hs | ⟨i, v, hs⟩
  · exact Or.inl (by rw [hs])
  · rw [hs]; exact s.head_engageOn h j i v

@[simp] theorem Station.engage_ring (s : Station) (h : HeadNo) :
    (s.engage h).ring = s.ring := by
  unfold Station.engage
  rcases s.onClaimed_cases h (Station.engageOn h) with hs | ⟨i, v, hs⟩ <;> rw [hs]
  exact s.engageOn_ring h i v

@[simp] theorem Station.engage_correction (s : Station) (h : HeadNo) :
    (s.engage h).correction = s.correction := by
  unfold Station.engage
  rcases s.onClaimed_cases h (Station.engageOn h) with hs | ⟨i, v, hs⟩ <;> rw [hs]
  exact s.engageOn_correction h i v

@[simp] theorem Station.engage_keepOut (s : Station) (h : HeadNo) :
    (s.engage h).keepOut = s.keepOut := by
  unfold Station.engage
  rcases s.onClaimed_cases h (Station.engageOn h) with hs | ⟨i, v, hs⟩ <;> rw [hs]
  exact s.engageOn_keepOut h i v

@[simp] theorem Station.engage_profiles (s : Station) (h : HeadNo) :
    (s.engage h).profiles = s.profiles := by
  unfold Station.engage
  rcases s.onClaimed_cases h (Station.engageOn h) with hs | ⟨i, v, hs⟩ <;> rw [hs]
  exact s.engageOn_profiles h i v

@[simp] theorem Station.engage_mgmt (s : Station) (h : HeadNo) :
    (s.engage h).mgmt = s.mgmt := by
  unfold Station.engage
  rcases s.onClaimed_cases h (Station.engageOn h) with hs | ⟨i, v, hs⟩ <;> rw [hs]
  exact s.engageOn_mgmt h i v

@[simp] theorem Station.engage_results (s : Station) (h : HeadNo) :
    (s.engage h).results = s.results := by
  unfold Station.engage
  rcases s.onClaimed_cases h (Station.engageOn h) with hs | ⟨i, v, hs⟩ <;> rw [hs]
  exact s.engageOn_results h i v

@[simp] theorem Station.engage_faults (s : Station) (h : HeadNo) :
    (s.engage h).faults = s.faults := by
  unfold Station.engage
  rcases s.onClaimed_cases h (Station.engageOn h) with hs | ⟨i, v, hs⟩ <;> rw [hs]
  exact s.engageOn_faults h i v

@[simp] theorem Station.loseWindow_ring (s : Station) (h : HeadNo) :
    (s.loseWindow h).ring = s.ring := by
  simp [Station.loseWindow]

@[simp] theorem Station.loseWindow_correction (s : Station) (h : HeadNo) :
    (s.loseWindow h).correction = s.correction := by
  simp [Station.loseWindow]

@[simp] theorem Station.loseWindow_keepOut (s : Station) (h : HeadNo) :
    (s.loseWindow h).keepOut = s.keepOut := by
  simp [Station.loseWindow]

@[simp] theorem Station.loseWindow_profiles (s : Station) (h : HeadNo) :
    (s.loseWindow h).profiles = s.profiles := by
  simp [Station.loseWindow]

@[simp] theorem Station.loseWindow_mgmt (s : Station) (h : HeadNo) :
    (s.loseWindow h).mgmt = s.mgmt := by
  simp [Station.loseWindow]

@[simp] theorem Station.loseWindow_results (s : Station) (h : HeadNo) :
    (s.loseWindow h).results = s.results := by
  simp [Station.loseWindow]

@[simp] theorem Station.loseWindow_faults (s : Station) (h : HeadNo) :
    (s.loseWindow h).faults = s.faults := by
  simp [Station.loseWindow]

/-- R75, R76: a head that loses its window. -/
theorem Station.head_loseWindow (s : Station) (h j : HeadNo) :
    (s.loseWindow h).head j =
      if h = j then { s.head h with claim := none, settle := 0, state := s.rest .seeking } else s.head j := by
  simp only [Station.loseWindow, Station.head_modHead, Station.head_releaseClaim, if_true, Station.rest,
    Station.releaseClaim_ring]
  split <;> rfl

end Sys2Proof.Machine
end

