-- ==== Sys2Proof/Laws/Answers.lean ====
section
/-!
SUPPORT. What a statement about a request needs before it meets the request itself: the step from the command to its effect, the
head that a byte names, the list of checks, and one event that reaches the four heads.
-/
namespace Sys2Proof.Machine

/-- A request taken as a command, in a part that takes frames, is its effect with the answer held. -/
theorem State.onRequest_active (f : Station → Station × Reply) (s : State) (ha : s.ring.active = true) :
    s.onRequest f = .next { s with toStation := s.toStation.take f } := by
  simp [State.onRequest, State.onStation, Station.request, ha]

/-- A part in reset or transparent takes no request. -/
theorem State.onRequest_inactive (f : Station → Station × Reply) (s : State) (ha : s.ring.active = false) :
    s.onRequest f = .next s := by
  simp [State.onRequest, State.onStation, Station.request, ha]

/-- A request that is taken answers DONE with its data over the state it leaves. -/
theorem State.onRequest_done {f : Station → Station × Reply} {s : State} {u : Station} {data : List Byte}
    (ha : s.ring.active = true) (hf : f s.toStation = (u, .done data)) :
    s.onRequest f = .next (State.doneWith data { s with toStation := u }) := by
  rw [State.onRequest_active f s ha]
  simp only [Station.take, hf]
  rfl

/-- The same with CLAMPED. -/
theorem State.onRequest_clamped {f : Station → Station × Reply} {s : State} {u : Station} {data : List Byte}
    (ha : s.ring.active = true) (hf : f s.toStation = (u, .clamped data)) :
    s.onRequest f = .next (State.clampedWith data { s with toStation := u }) := by
  rw [State.onRequest_active f s ha]
  simp only [Station.take, hf]
  rfl

/-- A request that is refused changes the answer and the refusal count alone. -/
theorem State.onRequest_refused {f : Station → Station × Reply} {s : State} {why : Denial}
    (ha : s.ring.active = true) (hf : f s.toStation = (s.toStation, .refused why)) :
    s.onRequest f = .next (s.refusedWith why) := by
  rw [State.onRequest_active f s ha]
  simp only [Station.take, hf]
  rfl

@[simp] theorem four?_headByte (h : HeadNo) : four? (headByte h) = some h := by
  match h with
  | 0 => rfl
  | 1 => rfl
  | 2 => rfl
  | 3 => rfl

theorem four?_above (b : Byte) (h : 3 < b.toNat) : four? b = none := by
  unfold four?
  rw [dif_neg (by omega)]

/-- A request that names head `h` is the request of that head. -/
theorem onHead_headByte (h : HeadNo) (f : HeadNo → Station → Station × Reply) (s : Station) :
    onHead (headByte h) f s = f h s := by
  unfold onHead
  rw [four?_headByte]

theorem onHead_above (b : Byte) (f : HeadNo → Station → Station × Reply) (s : Station) (h : 3 < b.toNat) :
    onHead b f s = (s, .refused .badIndex) := by
  unfold onHead
  rw [four?_above b h]

/-- No check fails when the first passes and none of the rest fails. -/
theorem firstFailing_cons_none (b : Bool) (why : Denial) (rest : List (Bool × Denial)) :
    firstFailing ((b, why) :: rest) = none ↔ b = false ∧ firstFailing rest = none := by
  cases b <;> simp [firstFailing]

/-- A check is the first to fail when it fails and no earlier one does. -/
theorem firstFailing_cons_some (b : Bool) (why d : Denial) (rest : List (Bool × Denial)) :
    firstFailing ((b, why) :: rest) = some d ↔ (b = true ∧ why = d) ∨ (b = false ∧ firstFailing rest = some d) := by
  cases b <;> simp [firstFailing]

theorem firstFailing_nil : firstFailing [] = none := rfl

/-- An event that changes each head by itself, reading nothing else that it changes, changes all four at once. -/
theorem Station.eachHead_eq_map (g : Head → Head) (f : HeadNo → Station → Station) (s : Station)
    (hf : ∀ h (hs : Four Head), f h { s with heads := hs } = ({ s with heads := hs } : Station).modHead h g) :
    s.eachHead f = { s with heads := s.heads.map g } := by
  unfold Station.eachHead
  have h0 := hf 0 s.heads
  have h1 := hf 1 (s.heads.set 0 (g (s.heads.get 0)))
  have h2 := hf 2 ((s.heads.set 0 (g (s.heads.get 0))).set 1 (g (s.heads.get 1)))
  have h3 := hf 3 (((s.heads.set 0 (g (s.heads.get 0))).set 1 (g (s.heads.get 1))).set 2 (g (s.heads.get 2)))
  change f 0 s = _ at h0
  rw [h0]
  change f 3 (f 2 (f 1 { s with heads := s.heads.set 0 (g (s.heads.get 0)) })) = _
  rw [h1]
  change f 3 (f 2 { s with heads := (s.heads.set 0 (g (s.heads.get 0))).set 1 (g (s.heads.get 1)) }) = _
  rw [h2]
  change f 3 { s with heads := ((s.heads.set 0 (g (s.heads.get 0))).set 1 (g (s.heads.get 1))).set 2 (g (s.heads.get 2)) } = _
  rw [h3]
  rfl

end Sys2Proof.Machine
end

