-- ==== Sys2Proof/Laws/Bytes.lean ====
section
/-! SUPPORT. Fields and their bytes: what is split joins again, and how many bytes a field takes, and the walk over a frame's
sections. -/
namespace Sys2Proof

@[simp] theorem join16_split (v : Half) : join16 (v.extractLsb' 0 8) (v.extractLsb' 8 8) = v := by
  apply BitVec.eq_of_getLsbD_eq
  intro i hi
  have h : (join16 (v.extractLsb' 0 8) (v.extractLsb' 8 8)).getLsbD i
      = (v.extractLsb' 8 8 ++ v.extractLsb' 0 8 : BitVec (8 + 8)).getLsbD i := rfl
  rw [h, BitVec.getLsbD_append]
  by_cases h8 : i < 8
  · simp [h8]
  · simp only [h8, decide_false, BitVec.getLsbD_extractLsb']
    rw [show 8 + (i - 8) = i by omega]
    simp [show i - 8 < 8 by omega]

@[simp] theorem join32_split (v : Word) :
    join32 (v.extractLsb' 0 8) (v.extractLsb' 8 8) (v.extractLsb' 16 8) (v.extractLsb' 24 8) = v := by
  apply BitVec.eq_of_getLsbD_eq
  intro i hi
  have h : (join32 (v.extractLsb' 0 8) (v.extractLsb' 8 8) (v.extractLsb' 16 8) (v.extractLsb' 24 8)).getLsbD i
      = ((v.extractLsb' 24 8 ++ v.extractLsb' 16 8 : BitVec (8 + 8)) ++ (v.extractLsb' 8 8 ++ v.extractLsb' 0 8 : BitVec (8 + 8))
          : BitVec ((8 + 8) + (8 + 8))).getLsbD i := rfl
  rw [h]
  simp only [BitVec.getLsbD_append, BitVec.getLsbD_extractLsb']
  by_cases h8 : i < 8
  · simp [h8, show i < 8 + 8 by omega]
  · by_cases h16 : i < 16
    · simp [h8, show i < 8 + 8 by omega, show i - 8 < 8 by omega, show 8 + (i - 8) = i by omega]
    · by_cases h24 : i < 24
      · simp [show ¬ i < 8 + 8 by omega, show i - 16 < 8 by omega, show 16 + (i - 16) = i by omega]
      · simp [show ¬ i < 8 + 8 by omega, show ¬ i - 16 < 8 by omega, show 24 + (i - 16 - 8) = i by omega,
          show i - 16 - 8 < 8 by omega]

@[simp] theorem bytes16_join16 (b0 b1 : Byte) : bytes16 (join16 b0 b1) = [b0, b1] := by
  have hj : ∀ i, (join16 b0 b1).getLsbD i = (b1 ++ b0 : BitVec (8 + 8)).getLsbD i := fun _ => rfl
  have e0 : (join16 b0 b1).extractLsb' 0 8 = b0 := by
    apply BitVec.eq_of_getLsbD_eq
    intro i hi
    rw [BitVec.getLsbD_extractLsb', hj, BitVec.getLsbD_append]
    simp [hi]
  have e1 : (join16 b0 b1).extractLsb' 8 8 = b1 := by
    apply BitVec.eq_of_getLsbD_eq
    intro i hi
    rw [BitVec.getLsbD_extractLsb', hj, BitVec.getLsbD_append]
    simp [hi, show 8 + i - 8 = i by omega]
  simp only [bytes16, e0, e1]

@[simp] theorem bytes32_join32 (b0 b1 b2 b3 : Byte) : bytes32 (join32 b0 b1 b2 b3) = [b0, b1, b2, b3] := by
  have hj : ∀ i, (join32 b0 b1 b2 b3).getLsbD i
      = ((b3 ++ b2 : BitVec (8 + 8)) ++ (b1 ++ b0 : BitVec (8 + 8)) : BitVec ((8 + 8) + (8 + 8))).getLsbD i := fun _ => rfl
  have e0 : (join32 b0 b1 b2 b3).extractLsb' 0 8 = b0 := by
    apply BitVec.eq_of_getLsbD_eq
    intro i hi
    rw [BitVec.getLsbD_extractLsb', hj]
    simp only [BitVec.getLsbD_append]
    simp [hi, show i < 8 + 8 by omega]
  have e1 : (join32 b0 b1 b2 b3).extractLsb' 8 8 = b1 := by
    apply BitVec.eq_of_getLsbD_eq
    intro i hi
    rw [BitVec.getLsbD_extractLsb', hj]
    simp only [BitVec.getLsbD_append]
    simp [hi, show 8 + i < 8 + 8 by omega, show ¬ 8 + i < 8 by omega, show 8 + i - 8 = i by omega]
  have e2 : (join32 b0 b1 b2 b3).extractLsb' 16 8 = b2 := by
    apply BitVec.eq_of_getLsbD_eq
    intro i hi
    rw [BitVec.getLsbD_extractLsb', hj]
    simp only [BitVec.getLsbD_append]
    simp [hi, show ¬ 16 + i < 8 + 8 by omega, show 16 + i - (8 + 8) = i by omega]
  have e3 : (join32 b0 b1 b2 b3).extractLsb' 24 8 = b3 := by
    apply BitVec.eq_of_getLsbD_eq
    intro i hi
    rw [BitVec.getLsbD_extractLsb', hj]
    simp only [BitVec.getLsbD_append]
    simp [hi, show ¬ 24 + i < 8 + 8 by omega, show ¬ 24 + i - (8 + 8) < 8 by omega, show 24 + i - (8 + 8) - 8 = i by omega]
  simp only [bytes32, e0, e1, e2, e3]

@[simp] theorem bytes16_length (v : Half) : (bytes16 v).length = 2 := rfl

@[simp] theorem bytes32_length (v : Word) : (bytes32 v).length = 4 := rfl

/-- The first bytes of a list that is long enough, one by one. -/
theorem take_eq_map_byteAt (l : List Byte) (n : Nat) (h : n ≤ l.length) : l.take n = (List.range n).map (byteAt l) := by
  apply List.ext_getElem
  · simp
    omega
  · intro i h1 h2
    simp only [List.length_take] at h1
    simp [byteAt, List.getElem?_eq_getElem (show i < l.length by omega)]

@[simp] theorem padTo_length (n : Nat) (l : List Byte) : (padTo n l).length = n := by
  simp only [padTo, List.length_take, List.length_append, List.length_replicate]
  omega

/-- A list that already has the length is not changed. -/
theorem padTo_of_length (n : Nat) (l : List Byte) (h : l.length = n) : padTo n l = l := by
  subst h
  simp [padTo]

namespace Machine

@[simp] theorem um_length (v : Int) : (um v).length = 4 := rfl

@[simp] theorem u8_length (n : Nat) : (u8 n).length = 1 := rfl

@[simp] theorem u16_length (n : Nat) : (u16 n).length = 2 := rfl

/-- A signed field read and written again is the bytes it was read from. -/
@[simp] theorem um_intAt (l : List Byte) (o : Nat) :
    um (intAt l o) = [byteAt l o, byteAt l (o + 1), byteAt l (o + 2), byteAt l (o + 3)] := by
  simp [um, intAt, wordAt]

/-- An unsigned two-byte field read and written again is the bytes it was read from. -/
@[simp] theorem u16_natAt16 (l : List Byte) (o : Nat) : u16 (natAt16 l o) = [byteAt l o, byteAt l (o + 1)] := by
  simp [u16, natAt16, halfAt]

@[simp] theorem u8_toNat (b : Byte) : u8 b.toNat = [b] := by simp [u8]

theorem carriageOut_length (l : List Byte) (sp : Spot) (gated : Bool) (h : l.length = 18) :
    (carriageOut l sp gated).length = 18 := by
  simp [carriageOut, h]

theorem toolOut_length (l : List Byte) (mode : Byte) (on : Bool) (position : Int) (command : Nat) (h : l.length = 20) :
    (toolOut l mode on position command).length = 20 := by
  simp [toolOut, h]

theorem answerOut_length (l : List Byte) (a : Reply) (h : l.length = 80) : (answerOut l a).length = 80 := by
  cases a <;> simp [answerOut, h]

@[simp] theorem result_bytes_length (r : Result) : r.bytes.length = 47 := by simp [Result.bytes]

/-- The check register stays within 32 bits, so its evaluation guard never acts. -/
theorem crcBit_lt (r : Nat) (h : r < 2 ^ 32) : crcBit r < 2 ^ 32 := by
  unfold crcBit
  split
  · exact Nat.xor_lt_two_pow (by omega) (by decide)
  · omega

theorem crcByte_lt (r b : Nat) (hr : r < 2 ^ 32) (hb : b < 2 ^ 32) : crcByte r b < 2 ^ 32 := by
  unfold crcByte
  exact crcBit_lt _ (crcBit_lt _ (crcBit_lt _ (crcBit_lt _ (crcBit_lt _ (crcBit_lt _ (crcBit_lt _ (crcBit_lt _
    (Nat.xor_lt_two_pow hr hb))))))))

theorem crcRegister_eq_foldl (l : List Byte) (r : Nat) (h : r < 2 ^ 32) :
    crcRegister l r = l.foldl (fun r b => crcByte r b.toNat) r := by
  induction l generalizing r with
  | nil => rfl
  | cons b l ih =>
    have hb : b.toNat < 2 ^ 32 := Nat.lt_trans b.isLt (by decide)
    have := crcByte_lt r b.toNat h hb
    simp only [crcRegister, this, if_true, List.foldl_cons]
    exact ih _ this

/-- A frame with a fresh check passes its check (R3, R6). -/
theorem checkPasses_withCheck (l : List Byte) : checkPasses (withCheck l) = true := by
  simp [checkPasses, withCheck]

/-- R4: the sections that a frame's bytes are made of are the ones that the walk finds in them. -/
theorem walkSections_bytes (ss : List Sect) (h : ∀ x ∈ ss, 1 ≤ x.id ∧ x.id ≤ 254 ∧ x.payload.length ≤ 255) :
    walkSections ss.length (ss.flatMap Sect.bytes) = some ss := by
  induction ss with
  | nil => rfl
  | cons x ss ih =>
    have hx := h x (by simp)
    have hid : (BitVec.ofNat 8 x.id : Byte).toNat = x.id := by simp; omega
    have hlen : (BitVec.ofNat 8 x.payload.length : Byte).toNat = x.payload.length := by simp; omega
    have hno : ¬ ((BitVec.ofNat 8 x.id : Byte) = 0 ∨ (BitVec.ofNat 8 x.id : Byte) = 255) := by
      rintro (e | e) <;> have := congrArg BitVec.toNat e <;> rw [hid] at this <;> simp at this <;> omega
    rw [List.length_cons, List.flatMap_cons, Sect.bytes, List.cons_append, List.cons_append, walkSections, if_neg hno, hlen,
      if_neg (by simp), List.drop_left, List.take_left, ih fun y hy => h y (by simp [hy]), hid]
    rfl

/-- R4: what the walk finds: as many sections as asked for, with legal ids, that make up all the bytes. -/
theorem walkSections_sound (n : Nat) (b : List Byte) (ss : List Sect) (h : walkSections n b = some ss) :
    ss.length = n ∧ ss.flatMap Sect.bytes = b ∧ ∀ x ∈ ss, 1 ≤ x.id ∧ x.id ≤ 254 ∧ x.payload.length ≤ 255 := by
  induction n generalizing b ss with
  | zero =>
    cases b with
    | nil =>
      simp [walkSections] at h
      subst h
      simp
    | cons => simp [walkSections] at h
  | succ n ih =>
    match b with
    | [] => simp [walkSections] at h
    | [_] => simp [walkSections] at h
    | id :: len :: rest =>
      unfold walkSections at h
      split at h
      · simp at h
      · next hid =>
        split at h
        · simp at h
        · next hl =>
          rw [Option.map_eq_some_iff] at h
          obtain ⟨t, ht, rfl⟩ := h
          obtain ⟨h1, h2, h3⟩ := ih _ _ ht
          have hcut : (rest.take len.toNat).length = len.toNat := by simp; omega
          refine ⟨by simp [h1], by rw [List.flatMap_cons, h2, Sect.bytes, hcut]; simp, ?_⟩
          intro x hx
          rcases List.mem_cons.mp hx with rfl | hx
          · have h0 : id.toNat ≠ 0 := fun e => hid (Or.inl (BitVec.eq_of_toNat_eq e))
            have h255 : id.toNat ≠ 255 := fun e => hid (Or.inr (BitVec.eq_of_toNat_eq e))
            have := id.isLt
            have := len.isLt
            exact ⟨show 1 ≤ id.toNat by omega, show id.toNat ≤ 254 by omega, by rw [hcut]; omega⟩
          · exact h3 x hx

end Machine

end Sys2Proof
end

