-- ==== Sys2Proof/Laws/Table.lean ====
section
/-! SUPPORT. Sparse tables: what is found after an update, and that every update keeps the canonical form. -/
namespace Sys2Proof.Machine

variable {α : Type}

theorem Table.find_put_same (t : Table α) (k : Nat) (v : α) : Table.find (Table.put t k v) k = some v := by
  induction t with
  | nil => simp [Table.put, Table.find]
  | cons e t ih =>
    obtain ⟨j, a⟩ := e
    simp only [Table.put]
    split
    · simp [Table.find]
    · split
      · simp [Table.find]
      · next h1 h2 => simp [Table.find, Ne.symm h2, ih]

theorem Table.find_put_other (t : Table α) (k j : Nat) (v : α) (h : j ≠ k) :
    Table.find (Table.put t k v) j = Table.find t j := by
  induction t with
  | nil => simp [Table.put, Table.find, Ne.symm h]
  | cons e t ih =>
    obtain ⟨i, a⟩ := e
    simp only [Table.put]
    split
    · simp [Table.find, Ne.symm h]
    · split
      · next h2 => subst h2; simp [Table.find, Ne.symm h]
      · simp only [Table.find]; split
        · rfl
        · exact ih

theorem Table.find_remove_other (t : Table α) (k j : Nat) (h : j ≠ k) :
    Table.find (Table.remove t k) j = Table.find t j := by
  induction t with
  | nil => rfl
  | cons e t ih =>
    obtain ⟨i, a⟩ := e
    simp only [Table.remove]
    split
    · next h2 => subst h2; simp [Table.find, Ne.symm h]
    · simp only [Table.find]; split
      · rfl
      · exact ih

/-- Every key of a canonical table lies above a bound that lies below its first key. -/
def Table.above (b : Nat) : Table α → Bool
  | [] => true
  | (j, _) :: _ => decide (b < j)

theorem Table.wf_cons (j : Nat) (a : α) (t : Table α) :
    Table.wf ((j, a) :: t) = (Table.above j t && Table.wf t) := by
  cases t with
  | nil => rfl
  | cons e t => obtain ⟨k, b⟩ := e; rfl

theorem Table.above_put (b : Nat) (t : Table α) (k : Nat) (v : α) (ht : Table.above b t = true) (hk : b < k) :
    Table.above b (Table.put t k v) = true := by
  cases t with
  | nil => simpa [Table.put, Table.above] using hk
  | cons e t =>
    obtain ⟨j, a⟩ := e
    simp only [Table.above, decide_eq_true_eq] at ht
    simp only [Table.put]
    split
    · simpa [Table.above] using hk
    · split
      · simpa [Table.above] using hk
      · simpa [Table.above] using ht

theorem Table.above_trans (b j : Nat) (t : Table α) (h : b < j) (ht : Table.above j t = true) : Table.above b t = true := by
  cases t with
  | nil => rfl
  | cons e t =>
    obtain ⟨k, a⟩ := e
    simp only [Table.above, decide_eq_true_eq] at *
    omega

theorem Table.wf_put (t : Table α) (k : Nat) (v : α) (h : Table.wf t = true) : Table.wf (Table.put t k v) = true := by
  induction t with
  | nil => rfl
  | cons e t ih =>
    obtain ⟨j, a⟩ := e
    rw [Table.wf_cons, Bool.and_eq_true] at h
    simp only [Table.put]
    split
    · next hk => rw [Table.wf_cons, Table.wf_cons, h.1, h.2]; simpa [Table.above] using hk
    · split
      · next hk => subst hk; rw [Table.wf_cons, h.1, h.2]; rfl
      · next hk hne =>
        rw [Table.wf_cons, ih h.2, Bool.and_true]
        exact Table.above_put j t k v h.1 (by omega)

theorem Table.above_wf_remove (k : Nat) (t : Table α) (b : Nat) (hb : Table.above b t = true) (h : Table.wf t = true) :
    Table.above b (Table.remove t k) = true ∧ Table.wf (Table.remove t k) = true := by
  induction t generalizing b with
  | nil => exact ⟨rfl, rfl⟩
  | cons e t ih =>
    obtain ⟨i, c⟩ := e
    rw [Table.wf_cons, Bool.and_eq_true] at h
    simp only [Table.remove]
    split
    · refine ⟨Table.above_trans b i t ?_ h.1, h.2⟩
      simpa [Table.above] using hb
    · rw [Table.wf_cons, Bool.and_eq_true]
      exact ⟨hb, ih i h.1 h.2⟩

theorem Table.wf_remove (t : Table α) (k : Nat) (h : Table.wf t = true) : Table.wf (Table.remove t k) = true := by
  cases t with
  | nil => rfl
  | cons e t =>
    obtain ⟨j, a⟩ := e
    rw [Table.wf_cons, Bool.and_eq_true] at h
    simp only [Table.remove]
    split
    · exact h.2
    · rw [Table.wf_cons, Bool.and_eq_true]
      exact Table.above_wf_remove k t j h.1 h.2

/-- A canonical table lists no key at or below a bound that lies below its first key. -/
theorem Table.find_of_above (b : Nat) (t : Table α) (hb : Table.above b t = true) (h : Table.wf t = true) (k : Nat)
    (hk : k ≤ b) : Table.find t k = none := by
  induction t generalizing b with
  | nil => rfl
  | cons e t ih =>
    obtain ⟨j, a⟩ := e
    rw [Table.wf_cons, Bool.and_eq_true] at h
    simp only [Table.above, decide_eq_true_eq] at hb
    simp only [Table.find]
    rw [if_neg (by omega)]
    exact ih j h.1 h.2 (by omega)

theorem Table.find_remove_same (t : Table α) (k : Nat) (h : Table.wf t = true) : Table.find (Table.remove t k) k = none := by
  induction t with
  | nil => rfl
  | cons e t ih =>
    obtain ⟨j, a⟩ := e
    rw [Table.wf_cons, Bool.and_eq_true] at h
    simp only [Table.remove]
    split
    · next hj => subst hj; exact Table.find_of_above j t h.1 h.2 j (Nat.le_refl j)
    · next hj => simp only [Table.find]; rw [if_neg hj]; exact ih h.2

theorem Table.mem_put (t : Table α) (k : Nat) (v : α) (e : Nat × α) (h : e ∈ Table.put t k v) : e = (k, v) ∨ e ∈ t := by
  induction t with
  | nil => simpa [Table.put] using h
  | cons d t ih =>
    obtain ⟨j, a⟩ := d
    simp only [Table.put] at h
    split at h
    · simpa using h
    · split at h
      · rcases List.mem_cons.mp h with h | h
        · exact Or.inl h
        · exact Or.inr (List.mem_cons_of_mem _ h)
      · rcases List.mem_cons.mp h with h | h
        · exact Or.inr (h ▸ List.mem_cons_self ..)
        · exact (ih h).imp id (List.mem_cons_of_mem _)

theorem Table.mem_remove (t : Table α) (k : Nat) (e : Nat × α) (h : e ∈ Table.remove t k) : e ∈ t := by
  induction t with
  | nil => exact h
  | cons d t ih =>
    obtain ⟨j, a⟩ := d
    simp only [Table.remove] at h
    split at h
    · exact List.mem_cons_of_mem _ h
    · rcases List.mem_cons.mp h with h | h
      · exact h ▸ List.mem_cons_self ..
      · exact List.mem_cons_of_mem _ (ih h)

/-- What is found under a key is listed. -/
theorem Table.mem_of_find (t : Table α) (k : Nat) (v : α) (h : Table.find t k = some v) : (k, v) ∈ t := by
  induction t with
  | nil => simp [Table.find] at h
  | cons d t ih =>
    obtain ⟨j, a⟩ := d
    simp only [Table.find] at h
    split at h
    · next hj => subst hj; simp only [Option.some.injEq] at h; subst h; exact List.mem_cons_self ..
    · exact List.mem_cons_of_mem _ (ih h)

/-- In a canonical table, what is listed is found. -/
theorem Table.find_of_mem (t : Table α) (k : Nat) (v : α) (h : Table.wf t = true) (hm : (k, v) ∈ t) :
    Table.find t k = some v := by
  induction t with
  | nil => simp at hm
  | cons d t ih =>
    obtain ⟨j, a⟩ := d
    rw [Table.wf_cons, Bool.and_eq_true] at h
    simp only [Table.find]
    rcases List.mem_cons.mp hm with hm | hm
    · simp only [Prod.mk.injEq] at hm; rw [if_pos hm.1.symm, hm.2]
    · split
      · next hj =>
        subst hj
        have := Table.find_of_above j t h.1 h.2 j (Nat.le_refl j)
        rw [ih h.2 hm] at this
        exact absurd this (by simp)
      · exact ih h.2 hm

/-- A new entry put beside the others is listed with them: the list of a table after a put at a key is the list after its
removal with the new entry added, up to order. -/
theorem Table.put_perm (t : Table α) (k : Nat) (v : α) (h : Table.wf t = true) :
    (Table.put t k v).Perm ((k, v) :: Table.remove t k) := by
  induction t with
  | nil => exact List.Perm.refl _
  | cons d t ih =>
    obtain ⟨j, a⟩ := d
    have hw := h
    rw [Table.wf_cons, Bool.and_eq_true] at h
    simp only [Table.put]
    split
    · next hk =>
      have hrem : Table.remove ((j, a) :: t) k = (j, a) :: t := by
        have aux : ∀ (t : Table α) (b : Nat), k ≤ b → Table.above b t = true → Table.wf t = true → Table.remove t k = t := by
          intro t
          induction t with
          | nil => intro b _ _ _; rfl
          | cons e t ih =>
            intro b hb ha hw
            obtain ⟨i, c⟩ := e
            rw [Table.wf_cons, Bool.and_eq_true] at hw
            simp only [Table.above, decide_eq_true_eq] at ha
            simp only [Table.remove]
            rw [if_neg (by omega), ih i (by omega) hw.1 hw.2]
        simp only [Table.remove]
        rw [if_neg (by omega), aux t j (by omega) h.1 h.2]
      rw [hrem]
    · split
      · next hk => subst hk; simp [Table.remove]
      · next hk hne =>
        simp only [Table.remove]
        rw [if_neg (Ne.symm hne)]
        exact ((ih h.2).cons _).trans (List.Perm.swap ..)

end Sys2Proof.Machine
end

