-- ==== Sys2Proof/Laws/Holes.lean ====
section
/-!
SUPPORT. What the shared operations do to hole records, to the result queue and to the raw fault set: what each leaves of one
record, so that no proof unfolds a table.
-/
namespace Sys2Proof.Machine

/-! ## The raw fault set -/

theorem FaultUnit.testIfGained_raw (b f : FaultUnit) : (FaultUnit.testIfGained b f).raw = f.raw := by
  unfold FaultUnit.testIfGained FaultUnit.attentionTest
  split
  · split <;> rfl
  · rfl

/-- R165: raising a kind adds it to the raw set. -/
theorem FaultUnit.raise_raw (k : FaultKind) (f : FaultUnit) : (f.raise k).raw = f.raw ||| k.bit :=
  FaultUnit.testIfGained_raw _ _

theorem FaultKind.bit_number (k : FaultKind) : k.bit.getLsbD k.number = true := by cases k <;> decide

/-- R165: the kind raised is raw. -/
theorem Station.raise_raised (k : FaultKind) (s : Station) : (s.raise k).faults.raw.getLsbD k.number = true := by
  simp [Station.raise, FaultUnit.raise_raw, FaultKind.bit_number]

/-- R165: a raise takes no kind out of the raw set. -/
theorem Station.raise_keeps (k : FaultKind) (s : Station) (n : Nat) (h : s.faults.raw.getLsbD n = true) :
    (s.raise k).faults.raw.getLsbD n = true := by
  simp [Station.raise, FaultUnit.raise_raw, h]

theorem Station.raiseAll_keeps (ks : List FaultKind) (s : Station) (n : Nat) (h : s.faults.raw.getLsbD n = true) :
    (s.raiseAll ks).faults.raw.getLsbD n = true := by
  induction ks generalizing s with
  | nil => exact h
  | cons k ks ih => exact ih (s.raise k) (s.raise_keeps k n h)

theorem Station.raiseAll_raised (ks : List FaultKind) (s : Station) (k : FaultKind) (h : k ∈ ks) :
    (s.raiseAll ks).faults.raw.getLsbD k.number = true := by
  induction ks generalizing s with
  | nil => cases h
  | cons j ks ih =>
    cases h with
    | head => exact Station.raiseAll_keeps ks _ _ (s.raise_raised k)
    | tail _ h => exact ih (s.raise j) h

theorem Station.holdTest_keeps (s : Station) (n : Nat) (h : s.faults.raw.getLsbD n = true) :
    s.holdTest.faults.raw.getLsbD n = true := by
  unfold Station.holdTest
  split
  · split <;> exact h
  · split
    · exact Station.raise_keeps _ _ n h
    · exact h

theorem Station.completenessIfWorking_keeps (s : Station) (n : Nat) (h : s.faults.raw.getLsbD n = true) :
    s.completenessIfWorking.faults.raw.getLsbD n = true := by
  unfold Station.completenessIfWorking Station.completenessTest
  split
  · split
    · exact Station.raise_keeps _ _ n h
    · exact h
  · exact h

/-! ## One record after each operation -/

theorem Station.hole_putHole (s : Station) (i j : Nat) (v : Hole) :
    (s.putHole i v).hole j = if j = i then some v else s.hole j := by
  show Table.find (Table.put s.table.holes i v) j = _
  split
  · next h => rw [h, Table.find_put_same]
  · next h => rw [Table.find_put_other _ _ _ _ h]; rfl

theorem Station.hole_modHole (s : Station) (i j : Nat) (f : Hole → Hole) :
    (s.modHole i f).hole j = if j = i then (s.hole i).map f else s.hole j := by
  unfold Station.modHole
  split
  · next h => split <;> simp_all
  · next v h => rw [Station.hole_putHole, h]; rfl

@[simp] theorem Station.hole_modHead (s : Station) (h : HeadNo) (f : Head → Head) (j : Nat) :
    (s.modHead h f).hole j = s.hole j := rfl

@[simp] theorem Station.hole_raise (s : Station) (k : FaultKind) (j : Nat) : (s.raise k).hole j = s.hole j := rfl

@[simp] theorem Station.hole_raiseAll (s : Station) (ks : List FaultKind) (j : Nat) : (s.raiseAll ks).hole j = s.hole j := by
  simp [Station.hole]

@[simp] theorem Station.hole_join (s : Station) (r : Result) (j : Nat) : (s.join r).hole j = s.hole j := by
  simp [Station.hole]

@[simp] theorem Station.hole_completenessIfWorking (s : Station) (j : Nat) : s.completenessIfWorking.hole j = s.hole j := by
  unfold Station.completenessIfWorking Station.completenessTest
  split
  · split <;> rfl
  · rfl

/-- R73, R35: releasing a claim clears the claimant of the claimed hole and touches no other record. -/
theorem Station.hole_releaseClaim (s : Station) (h : HeadNo) (j : Nat) :
    (s.releaseClaim h).hole j =
      if (s.head h).claim.map (fun c => c.hole) = some j then (s.hole j).map fun v => { v with claimant := none }
      else s.hole j := by
  unfold Station.releaseClaim
  split
  · next hc => simp [hc]
  · next c hc =>
    rw [Station.hole_modHead, Station.hole_modHole, hc]
    by_cases e : j = c.hole
    · subst e; simp
    · simp [e, Ne.symm e]

/-- R78: the records after a cycle end, of a head whose claim is on the cycle's hole. -/
theorem Station.hole_concludeCycle (s : Station) (h : HeadNo) (c : Cycle) (o : CycleOutcome) (why : Reason) (j : Nat)
    (hc : (s.head h).claim.map (fun k => k.hole) = some c.hole) :
    (s.concludeCycle h c o why).hole j =
      if j = c.hole then (s.hole j).map fun v => Hole.cycleEnd c o why { v with claimant := none } else s.hole j := by
  simp only [Station.concludeCycle, Station.hole_completenessIfWorking, Station.hole_raiseAll, Station.hole_join,
    Station.hole_modHead, Station.hole_modHole, Station.hole_releaseClaim, hc, if_true]
  by_cases e : j = c.hole
  · subst e; simp only [if_true, Option.map_map]; rfl
  · rw [if_neg e, if_neg e, if_neg (fun h => e (Option.some.inj h).symm)]

/-! ## The result queue -/

@[simp] theorem Station.holdTest_records (s : Station) : s.holdTest.results.records = s.results.records := by
  unfold Station.holdTest
  split
  · split <;> rfl
  · split <;> rfl

theorem Station.join_records (s : Station) (r : Result) : (s.join r).results.records = s.results.records ++ [r] := by
  simp [Station.join]

/-- R155, R158: what a record that joins does to the rest of the queue and to the fault sets; nothing else changes. -/
theorem Station.join_spec (s : Station) (r : Result) (n : Nat) (hn : n = s.results.records.length + 1) :
    (s.join r).results.upper = s.results.upper ∧ (s.join r).results.lower = s.results.lower
      ∧ (s.join r).results.hold = (if s.results.hold then decide (s.results.lower < n) else decide (s.results.upper ≤ n))
      ∧ (s.join r).faults
        = (if s.results.hold = false ∧ s.results.upper ≤ n then s.faults.raise .resultHold else s.faults)
      ∧ (s.join r).table = s.table := by
  subst hn
  simp only [Station.join, Station.holdTest, List.length_append, List.length_cons, List.length_nil, Nat.zero_add]
  cases hh : s.results.hold
  · by_cases q : s.results.upper ≤ s.results.records.length + 1 <;> simp [q, Station.raise]
  · by_cases q : s.results.records.length + 1 ≤ s.results.lower <;> simp [q] <;> omega

/-- R44: the completeness test while the jig is WORKING: the mark, JIG_COMPLETE at its first pass, and nothing else. -/
theorem Station.completenessIfWorking_spec (s : Station) (all : Bool) (ha : all = s.table.holes.all fun e => e.2.terminal) :
    s.completenessIfWorking.table = { s.table with complete := s.table.complete || (s.table.jig == .working && all) }
      ∧ s.completenessIfWorking.faults
        = (if s.table.jig = .working ∧ s.table.complete = false ∧ all = true then s.faults.raise .jigComplete else s.faults)
      ∧ s.completenessIfWorking.results = s.results := by
  unfold Station.completenessIfWorking Station.completenessTest
  rw [← ha]
  clear ha
  obtain ⟨ring, ⟨jig, id, complete, holes, half⟩, correction, heads, keepOut, profiles, results, mgmt, faults⟩ := s
  cases jig <;> cases complete <;> cases all <;> simp [Station.raise]

/-- R78, R155: a cycle end queues exactly one record. -/
theorem Station.concludeCycle_records (s : Station) (h : HeadNo) (c : Cycle) (o : CycleOutcome) (why : Reason) :
    (s.concludeCycle h c o why).results.records = s.results.records ++ [s.cycleRecord h c o why] := by
  simp [Station.concludeCycle, Station.join_records]

/-- R78: a cycle end not caused by a fault queues exactly one record. -/
theorem Station.finishCycle_records (s : Station) (h : HeadNo) (c : Cycle) (o : CycleOutcome) (why : Reason)
    (hc : (s.head h).engine = some c) (hd : c.decision = some (o, why)) :
    (s.finishCycle h).results.records = s.results.records ++ [s.cycleRecord h c o why] := by
  unfold Station.finishCycle
  simp only [hc, hd]
  exact s.concludeCycle_records h c o why

/-- R63: only a cycle in flight queues a record when a cause reaches the head. -/
theorem Station.toFault_results (s : Station) (h : HeadNo) (cause : Reason) (hc : (s.head h).engine = none) :
    (s.toFault h cause).results = s.results := by
  unfold Station.toFault Station.failCycle
  split
  · rw [hc]; simp
  · rfl

end Sys2Proof.Machine
end

