-- ==== Sys2Proof/Laws/Kept.lean ====
section
/-!
SUPPORT. What a command can do, said once: a property of the station that every named operation keeps is kept by every command
and by every step. An invariant is proved by giving the fields of `Kept`.
-/
namespace Sys2Proof.Machine

/-- Two rings that differ at most in counters, the frame in flight, the losses and the frames that have left. -/
def Ring.sameRule (a b : Ring) : Prop :=
  a.address = b.address ∧ a.inReset = b.inReset ∧ a.stopPin = b.stopPin ∧ a.headerHalt = b.headerHalt
    ∧ a.lossLimit = b.lossLimit ∧ a.map = b.map

/-- A property of the station that every operation from which the commands are made keeps. -/
structure Kept (P : Station → Prop) : Prop where
  book : ∀ (s : Station) (r : Ring) (m : Mgmt), r.sameRule s.ring → P s → P { s with ring := r, mgmt := m }
  raise : ∀ (s : Station) (k : FaultKind), P s → P (s.raise k)
  headerHalt : ∀ (s : Station) (b : Bool), P s → P (s.headerHalt b)
  stopLevel : ∀ (s : Station) (b : Bool), P s → P (s.stopLevel b)
  toFault : ∀ (s : Station) (h : HeadNo) (cause : Reason), P s → P (s.toFault h cause)
  beginOutbound : ∀ s : Station, P s → P s.beginOutbound
  carriageOutbound : ∀ (s : Station) (h : HeadNo) (l : List Byte), P s → P (s.carriageOutbound h l).1
  toolOutbound : ∀ (s : Station) (h : HeadNo) (l : List Byte), P s → P (s.toolOutbound h l).1
  carriageReturn : ∀ (s : Station) (h : HeadNo) (l : List Byte), P s → P (s.carriageReturn h l)
  toolReturn : ∀ (s : Station) (h : HeadNo) (l : List Byte), P s → P (s.toolReturn h l)
  drain : ∀ (s : Station) (l : List Byte), P s → P (s.drain l).1
  request : ∀ (i : Instr) (f : Station → Station × Reply), requestEffect i = some f → ∀ s : Station, P s → P (f s).1
  powerOn : ∀ (s : Station) (pins : BitVec 6) (stop : Bool), P s → P (s.powerOn pins stop)
  assertReset : ∀ s : Station, P s → P s.assertReset
  spinUpLimit : ∀ (s : Station) (h : HeadNo) (v : Half), P s → P (s.spinUpLimit h v)
  toolNotHome : ∀ (s : Station) (h : HeadNo) (v : Word) (b : Bool), P s → P (s.toolNotHome h v b)
  rivetFeedLimit : ∀ (s : Station) (h : HeadNo) (b : Bool), P s → P (s.rivetFeedLimit h b)
  dwellComplete : ∀ (s : Station) (h : HeadNo) (v : Half), P s → P (s.dwellComplete h v)

variable {P : Station → Prop}

theorem Kept.ring (k : Kept P) (s : Station) (r : Ring) (h : r.sameRule s.ring) (hp : P s) : P { s with ring := r } :=
  k.book s r s.mgmt h hp

theorem Kept.mgmt (k : Kept P) (s : Station) (m : Mgmt) (hp : P s) : P { s with mgmt := m } :=
  k.book s s.ring m ⟨rfl, rfl, rfl, rfl, rfl, rfl⟩ hp

theorem Kept.stopEdges (k : Kept P) (edges : List StopEdge) (s : Station) (hp : P s) : P (s.stopEdges edges) := by
  induction edges generalizing s with
  | nil => exact hp
  | cons e edges ih => exact ih (s.stopLevel e.asserted) (k.stopLevel s e.asserted hp)

theorem Kept.eachHead (f : HeadNo → Station → Station) (hf : ∀ h s, P s → P (f h s)) (s : Station) (hp : P s) :
    P (s.eachHead f) :=
  hf 3 _ (hf 2 _ (hf 1 _ (hf 0 _ hp)))

theorem Kept.section (k : Kept P) (handle : Owner → List Byte → Station → Station × List Byte)
    (hh : ∀ o l s, P s → P (handle o l s).1) (p : Pass) (x : Sect) (hp : P p.station) :
    P (p.section handle x).station := by
  have hf : P p.fall.station := k.stopEdges _ _ hp
  unfold Pass.section
  dsimp only
  split
  · exact hf
  · exact hh _ _ _ hf

theorem Kept.sections (k : Kept P) (handle : Owner → List Byte → Station → Station × List Byte)
    (hh : ∀ o l s, P s → P (handle o l s).1) (xs : List Sect) (p : Pass) (hp : P p.station) :
    P (p.sections handle xs).station := by
  induction xs generalizing p with
  | nil => exact hp
  | cons x xs ih => exact ih (p.section handle x) (k.section handle hh p x hp)

theorem Kept.sendSpur (k : Kept P) (frame : List Byte) (s : Station) (hp : P s) : P (s.sendSpur frame) :=
  k.ring s _ ⟨rfl, rfl, rfl, rfl, rfl, rfl⟩ hp

theorem Kept.sendLine (k : Kept P) (frame : List Byte) (s : Station) (hp : P s) : P (s.sendLine frame) :=
  k.ring s _ ⟨rfl, rfl, rfl, rfl, rfl, rfl⟩ hp

theorem Kept.countDamaged (k : Kept P) (s : Station) (hp : P s) : P s.countDamaged :=
  k.raise _ _ (k.ring s _ ⟨rfl, rfl, rfl, rfl, rfl, rfl⟩ hp)

theorem Kept.countStale (k : Kept P) (s : Station) (hp : P s) : P s.countStale :=
  k.ring s _ ⟨rfl, rfl, rfl, rfl, rfl, rfl⟩ hp

theorem Kept.holdAnswer (k : Kept P) (r : Reply) (s : Station) (hp : P s) : P (s.holdAnswer r) := k.mgmt s _ hp

theorem Kept.take (k : Kept P) (i : Instr) (f : Station → Station × Reply) (hf : requestEffect i = some f) (s : Station)
    (hp : P s) : P (s.take f) :=
  k.holdAnswer _ _ (k.request i f hf s hp)

theorem Kept.takeManagement (k : Kept P) (l : List Byte) (s : Station) (hp : P s) : P (s.takeManagement l) := by
  unfold Station.takeManagement
  split
  · exact hp
  · exact k.holdAnswer _ _ hp
  · split
    · next f hf => exact k.take _ f hf s hp
    · exact hp

theorem Kept.declareLost (k : Kept P) (s : Station) (hp : P s) : P s.declareLost := by
  have h1 : P { s with
      ring := { s.ring with lostReturns := satInc s.ring.lostReturns, losses := min (s.ring.losses + 1) 255 }
      mgmt := { s.mgmt with answer := none } } :=
    k.book s _ _ ⟨rfl, rfl, rfl, rfl, rfl, rfl⟩ hp
  unfold Station.declareLost
  dsimp only
  split
  · exact k.raise _ _ (Kept.eachHead _ (fun h s hs => k.toFault s h .spurLoss hs) _ h1)
  · exact h1

theorem Kept.launch (k : Kept P) (seq : Half) (s : Station) (hp : P s) : P (s.launch seq) := by
  have aux : ∀ t : Station, P t →
      P { t with ring := { t.ring with inFlight := some seq }, mgmt := { t.mgmt with answer := none } } :=
    fun t ht => k.book t _ _ ⟨rfl, rfl, rfl, rfl, rfl, rfl⟩ ht
  unfold Station.launch
  split
  · exact aux _ hp
  · exact aux _ (k.declareLost s hp)

theorem Kept.outboundHeader (k : Kept P) (f : Frame) (s : Station) (hp : P s) : P (s.outboundHeader f) :=
  k.beginOutbound _ (k.launch _ _ (k.headerHalt _ _ (k.ring s _ ⟨rfl, rfl, rfl, rfl, rfl, rfl⟩ hp)))

theorem Kept.outboundSection (k : Kept P) (o : Owner) (l : List Byte) (s : Station) (hp : P s) :
    P (Machine.outboundSection o l s).1 := by
  unfold Machine.outboundSection
  split
  · exact k.takeManagement l s hp
  · exact k.carriageOutbound s _ l hp
  · exact k.toolOutbound s _ l hp
  · exact hp
  · exact hp

theorem Kept.missingTest (k : Kept P) (taken : List Role) (h : HeadNo) (s : Station) (hp : P s) :
    P (s.missingTest taken h) := by
  unfold Station.missingTest
  split
  · exact k.toFault _ _ _ (k.raise _ _ hp)
  · exact hp

theorem Kept.outbound (k : Kept P) (frame : List Byte) (edges : List StopEdge) (s : Station) (hp : P s) :
    P (s.outbound frame edges) := by
  unfold Station.outbound
  split
  · exact k.stopEdges _ _ hp
  · split
    · exact k.stopEdges _ _ (k.sendSpur _ _ hp)
    · split
      · exact k.stopEdges _ _ (k.sendSpur _ _ (k.countDamaged _ hp))
      · exact k.stopEdges _ _ (k.sendSpur _ _ hp)
      · refine k.sendSpur _ _ (k.stopEdges _ _ (Kept.eachHead _ (fun h s hs => k.missingTest _ h s hs) _ ?_))
        exact k.sections _ (fun o l s hs => k.outboundSection o l s hs) _ _ (k.outboundHeader _ _ hp)

theorem Kept.returnSection (k : Kept P) (o : Owner) (l : List Byte) (s : Station) (hp : P s) :
    P (Machine.returnSection o l s).1 := by
  unfold Machine.returnSection
  split
  · exact hp
  · exact k.carriageReturn s _ l hp
  · exact k.toolReturn s _ l hp
  · exact hp
  · exact k.drain s l hp

theorem Kept.damagedReturn (k : Kept P) (s : Station) (hp : P s) : P s.damagedReturn := by
  unfold Station.damagedReturn
  split
  · exact hp
  · exact k.declareLost _ (k.ring s _ ⟨rfl, rfl, rfl, rfl, rfl, rfl⟩ hp)

theorem Kept.takeReturn (k : Kept P) (f : Frame) (edges : List StopEdge) (s : Station) (hp : P s) :
    P (s.takeReturn f edges) := by
  refine k.sendLine _ _ (k.stopEdges _ _ (k.mgmt _ _ ?_))
  exact k.sections _ (fun o l s hs => k.returnSection o l s hs) _ _ (k.ring s _ ⟨rfl, rfl, rfl, rfl, rfl, rfl⟩ hp)

theorem Kept.inbound (k : Kept P) (frame : List Byte) (edges : List StopEdge) (s : Station) (hp : P s) :
    P (s.inbound frame edges) := by
  unfold Station.inbound
  split
  · exact k.stopEdges _ _ hp
  · split
    · exact k.stopEdges _ _ (k.sendLine _ _ hp)
    · split
      · exact k.stopEdges _ _ (k.sendLine _ _ (k.countDamaged _ (k.damagedReturn _ hp)))
      · exact k.stopEdges _ _ (k.sendLine _ _ hp)
      · split
        · exact k.takeReturn _ _ _ hp
        · exact k.stopEdges _ _ (k.sendLine _ _ (k.countStale _ hp))

theorem Kept.onRequest (k : Kept P) (i : Instr) (f : Station → Station × Reply) (hf : requestEffect i = some f) (s : Station)
    (hp : P s) : P (s.request f) := by
  unfold Station.request
  split
  · exact k.take i f hf s hp
  · exact hp

/-- A request row runs the effect that a MGMT section with that request runs. -/
theorem exec_request (i : Instr) (f : Station → Station × Reply) (hf : requestEffect i = some f) (s : State) :
    exec i s = s.onRequest f := by
  cases i <;> simp only [requestEffect, Option.some.injEq, reduceCtorEq] at hf <;> subst hf <;> rfl

/-- Every command keeps what `Kept` keeps. -/
theorem Kept.exec (k : Kept P) (i : Instr) (s t : State) (he : Machine.exec i s = .next t) (hp : P s.toStation) :
    P t.toStation := by
  cases hi : requestEffect i with
  | some f =>
    rw [exec_request i f hi] at he
    cases he
    exact k.onRequest i f hi _ hp
  | none =>
    cases i <;> simp only [requestEffect, reduceCtorEq] at hi <;> cases he
    · exact k.powerOn _ _ _ hp
    · exact k.assertReset _ hp
    · exact k.stopLevel _ _ hp
    · exact k.outbound _ _ _ hp
    · exact k.inbound _ _ _ hp
    · exact k.spinUpLimit _ _ _ hp
    · exact k.toolNotHome _ _ _ _ hp
    · exact k.rivetFeedLimit _ _ _ hp
    · exact k.dwellComplete _ _ _ hp

/-- Every step keeps what `Kept` keeps. -/
theorem Kept.step (k : Kept P) (s t : State) (he : Machine.step s = .next t) (hp : P s.toStation) : P t.toStation := by
  unfold Machine.step at he
  split at he
  · cases he; exact hp
  · exact k.exec _ _ _ he hp

end Sys2Proof.Machine
end

