-- ==== Sys2Proof/Laws/Moves.lean ====
section
/-!
SUPPORT. What a return can do to a head, said once: a property of the station that the elementary moves of a head keep is kept
by CARRIAGE returns, TOOL returns, the sections of an outbound pass and the limit events. Each move comes with the conditions
under which the machine makes it.
-/
namespace Sys2Proof.Machine

/-- Two heads that differ at most in gate, settle counter, drive statuses, last refusal, bank and the contents of the cycle. -/
def Head.sameDuty (a b : Head) : Prop :=
  a.cfg = b.cfg ∧ a.state = b.state ∧ a.queue = b.queue ∧ a.claim = b.claim ∧ a.engine.isSome = b.engine.isSome

/-- A head in a cycle before and after a move inside the cycle: the cycle, the state and the bank may have moved on. -/
def Head.sameRun (a b : Head) : Prop :=
  a.cfg = b.cfg ∧ a.queue = b.queue ∧ a.claim = b.claim ∧ a.state.inCycle = true ∧ b.state.inCycle = true
    ∧ b.engine.isSome = a.engine.isSome

/-- A property of the station that the elementary moves of a head keep. -/
structure HeadMoves (P : Station → Prop) : Prop where
  raise : ∀ (s : Station) (k : FaultKind), P s → P (s.raise k)
  quiet : ∀ (s : Station) (h : HeadNo) (w : Head), (s.head h).sameDuty w → P s → P (s.setHead h w)
  run : ∀ (s : Station) (h : HeadNo) (w : Head), (s.head h).sameRun w → P s → P (s.setHead h w)
  toFault : ∀ (s : Station) (h : HeadNo) (cause : Reason), P s → P (s.toFault h cause)
  discard : ∀ (s : Station) (h : HeadNo) (i : Nat) (why : Reason), (s.head h).state = .seeking → s.results.hold = false →
    P s → P (s.discard h i why)
  grant : ∀ (s : Station) (h : HeadNo) (i : Nat) (v : Hole), (s.head h).state = .seeking → s.results.hold = false →
    s.hole i = some v → s.arbitrate h v = .granted → P s → P (s.grant h i v)
  loseWindow : ∀ (s : Station) (h : HeadNo), (s.head h).state = .settling ∨ (s.head h).state = .armed → P s →
    P (s.loseWindow h)
  arm : ∀ (s : Station) (h : HeadNo), (s.head h).state = .settling → P s →
    P (s.modHead h fun w => { w with state := .armed })
  engageOn : ∀ (s : Station) (h : HeadNo) (c : Claim) (v : Hole), (s.head h).state = .settling ∨ (s.head h).state = .armed →
    (s.head h).claim = some c → s.hole c.hole = some v → P s → P (s.engageOn h c.hole v)
  finishCycle : ∀ (s : Station) (h : HeadNo), (s.head h).state.inCycle = true → P s → P (s.finishCycle h)

variable {P : Station → Prop}

theorem HeadMoves.raiseAll (m : HeadMoves P) (ks : List FaultKind) (s : Station) (hp : P s) : P (s.raiseAll ks) := by
  induction ks generalizing s with
  | nil => exact hp
  | cons k ks ih => exact ih (s.raise k) (m.raise s k hp)

theorem HeadMoves.engage (m : HeadMoves P) (s : Station) (h : HeadNo)
    (hst : (s.head h).state = .settling ∨ (s.head h).state = .armed) (hp : P s) : P (s.engage h) := by
  unfold Station.engage Station.onClaimed
  split
  · exact hp
  · next c hc =>
    split
    · exact hp
    · next v hv => exact m.engageOn s h c v hst hc hv hp

theorem HeadMoves.claimRequest (m : HeadMoves P) (s : Station) (h : HeadNo) (i : Nat) (v : Hole)
    (hst : (s.head h).state = .seeking) (hold : s.results.hold = false) (hv : s.hole i = some v) (hp : P s) :
    P (s.claimRequest h i v) := by
  unfold Station.claimRequest
  split
  · exact hp
  · exact m.quiet _ _ _ ⟨rfl, rfl, rfl, rfl, rfl⟩ hp
  · exact m.quiet _ _ _ ⟨rfl, rfl, rfl, rfl, rfl⟩ hp
  · next ha => exact m.grant s h i v hst hold hv ha hp

theorem HeadMoves.evaluate (m : HeadMoves P) (s : Station) (h : HeadNo) (actual : Spot)
    (hst : (s.head h).state = .seeking) (hp : P s) : P (s.evaluate h actual) := by
  unfold Station.evaluate
  split
  · exact hp
  · next hold =>
    have hold : s.results.hold = false := by simpa using hold
    split
    · exact hp
    · split
      · exact m.discard _ _ _ _ hst hold hp
      · next v hv =>
        unfold Station.evaluateHole
        split
        · exact m.discard _ _ _ _ hst hold hp
        · exact hp
        · split
          · exact hp
          · split
            · exact m.claimRequest s h _ v hst hold hv hp
            · exact hp

theorem HeadMoves.settleRise (m : HeadMoves P) (s : Station) (h : HeadNo) (hst : (s.head h).state = .settling) (hp : P s) :
    P (s.settleRise h) := by
  have h1 : P (s.modHead h fun w => { w with settle := (s.head h).settle + 1 }) :=
    m.quiet _ _ _ ⟨rfl, rfl, rfl, rfl, rfl⟩ hp
  unfold Station.settleRise
  dsimp only
  split
  · exact h1
  · split
    · exact m.engage _ _ (Or.inl (by simpa using hst)) h1
    · exact m.arm _ _ (by simpa using hst) h1

theorem HeadMoves.controllerReturn (m : HeadMoves P) (s : Station) (h : HeadNo) (actual : Spot) (hp : P s) :
    P (s.controllerReturn h actual) := by
  unfold Station.controllerReturn
  split
  case h_1 hst | h_2 hst =>
    split
    · exact m.run _ _ _ ⟨rfl, rfl, rfl, by rw [hst]; rfl, rfl, by simp [Head.shift]⟩ hp
    · exact hp
  case h_3 hst => exact m.evaluate s h actual hst hp
  case h_4 hst =>
    rcases s.onClaimed_cases h (Station.settleReturn h actual) with hs | ⟨i, v, hs⟩ <;> rw [hs]
    · exact hp
    · unfold Station.settleReturn
      dsimp only
      split
      · exact m.loseWindow s h (Or.inl hst) hp
      · split
        · exact m.quiet _ _ _ ⟨rfl, rfl, rfl, rfl, rfl⟩ hp
        · exact m.settleRise s h hst hp
  case h_5 hst =>
    rcases s.onClaimed_cases h (Station.armedReturn h actual) with hs | ⟨i, v, hs⟩ <;> rw [hs]
    · exact hp
    · unfold Station.armedReturn
      split
      · exact m.loseWindow s h (Or.inr hst) hp
      · exact hp
  all_goals exact hp

theorem HeadMoves.driveReports (m : HeadMoves P) (s : Station) (h : HeadNo) (st : DriveStatus) (hp : P s) :
    P (s.driveReports h st) := by
  unfold Station.driveReports
  split
  · exact m.toFault _ _ _ (m.raise _ _ hp)
  · exact hp

theorem HeadMoves.carriageReturn (m : HeadMoves P) (s : Station) (h : HeadNo) (l : List Byte) (hp : P s) :
    P (s.carriageReturn h l) :=
  m.controllerReturn _ _ _ (m.quiet _ _ _ ⟨rfl, rfl, rfl, rfl, rfl⟩
    (m.driveReports _ _ _ (m.quiet _ _ _ ⟨rfl, rfl, rfl, rfl, rfl⟩ hp)))

/-! ## A cycle return keeps the head in its cycle -/

/-- What every part of a cycle return keeps: the head state is one of a cycle. -/
def Run.inCycle (r : Run) : Prop := r.state.inCycle = true

theorem Run.conclude_inCycle (r : Run) (o : CycleOutcome) (why : Reason) : (r.conclude o why).inCycle := rfl

theorem Run.onDrill_inCycle (f : DrillWork → Run → Run) (hf : ∀ w r, r.inCycle → (f w r).inCycle) (r : Run) (h : r.inCycle) :
    (r.onDrill f).inCycle := by
  unfold Run.onDrill; split
  · exact hf _ _ h
  · exact h

theorem Run.onSet_inCycle (f : SetWork → Run → Run) (hf : ∀ w r, r.inCycle → (f w r).inCycle) (r : Run) (h : r.inCycle) :
    (r.onSet f).inCycle := by
  unfold Run.onSet; split
  · exact h
  · exact hf _ _ h

theorem Run.overload_inCycle (fb : Feedback) (limit : Nat) (r : Run) (h : r.inCycle) : (r.overload fb limit).inCycle := by
  unfold Run.overload
  repeat' split
  all_goals first | exact h | rfl

theorem Run.homeTest_inCycle (fb : Feedback) (band : Int) (r : Run) (h : r.inCycle) : (r.homeTest fb band).inCycle := by
  unfold Run.homeTest
  repeat' split
  all_goals first | exact h | rfl

theorem Run.spindle_inCycle (fb : Feedback) (r : Run) (h : r.inCycle) : (r.spindle fb).inCycle := by
  refine Run.onDrill_inCycle _ (fun w r hr => ?_) r h
  dsimp only; split
  · rfl
  · exact hr

theorem Run.recordDrill_inCycle (fb : Feedback) (r : Run) (h : r.inCycle) : (r.recordDrill fb).inCycle :=
  Run.onDrill_inCycle _ (fun _ _ hr => by exact hr) r h

theorem Run.seekTest_inCycle (fb : Feedback) (sent : Int) (w : DrillWork) (r : Run) (h : r.inCycle) :
    (r.seekTest fb sent w).inCycle := by
  unfold Run.seekTest; dsimp only
  repeat' split
  all_goals first | exact h | rfl

theorem Run.torqueTest_inCycle (fb : Feedback) (sent : Int) (i : Nat) (w : DrillWork) (r : Run) (h : r.inCycle) :
    (r.torqueTest fb sent i w).inCycle := by
  unfold Run.torqueTest; dsimp only
  repeat' split
  all_goals first | exact h | rfl

theorem Run.exitTest_inCycle (fb : Feedback) (sent : Int) (w : DrillWork) (r : Run) (h : r.inCycle) :
    (r.exitTest fb sent w).inCycle := by
  unfold Run.exitTest; dsimp only
  repeat' split
  all_goals first | exact h | rfl

theorem Run.drillTests_inCycle (fb : Feedback) (sent band : Int) (r : Run) (h : r.inCycle) :
    (r.drillTests fb sent band).inCycle := by
  unfold Run.drillTests; split
  · exact h
  · refine Run.onDrill_inCycle _ (fun w r hr => ?_) r h
    split
    · exact Run.seekTest_inCycle fb sent w r hr
    · exact Run.torqueTest_inCycle fb sent _ w r hr
    · exact Run.exitTest_inCycle fb sent w r hr
    · exact Run.homeTest_inCycle fb band r hr
    all_goals exact hr

theorem Run.note_inCycle (n : Nat) (r : Run) (h : r.inCycle) : (r.note n).inCycle := by
  unfold Run.note; split <;> exact h

theorem Run.latch_inCycle (fb : Feedback) (sent hold : Int) (l : List LiveComparator) (r : Run) (h : r.inCycle) :
    (r.latch fb sent hold l).inCycle := by
  unfold Run.latch; split <;> exact h

theorem Run.actOne_inCycle (fired : List LiveComparator) (r : Run) (h : r.inCycle) : (r.actOne fired).inCycle := by
  unfold Run.actOne; split
  · unfold Run.actRetract; split
    · exact Run.note_inCycle 1 r h
    · rfl
  · unfold Run.actFreeze; split
    · rfl
    · exact h
  · unfold Run.actEase; split
    · exact h
    · exact Run.note_inCycle 1 r h
  · exact h

theorem Run.comparators_inCycle (fb : Feedback) (sent hold : Int) (st : HeadState) (bit : Nat) (r : Run) (h : r.inCycle) :
    (r.comparators fb sent hold st bit).inCycle := by
  unfold Run.comparators; split
  · exact Run.actOne_inCycle _ _ (Run.latch_inCycle fb sent hold _ _ (Run.note_inCycle _ _ h))
  · exact h

theorem Run.drillBoundary_inCycle (w : DrillWork) (r : Run) (h : r.inCycle) : (r.drillBoundary w).inCycle := by
  unfold Run.drillBoundary; split
  case h_5 => unfold Run.stackCheck; split <;> rfl
  all_goals exact h

theorem Run.drillStep_inCycle (fb : Feedback) (r : Run) (h : r.inCycle) : (r.drillStep fb).inCycle := by
  unfold Run.drillStep; split
  · exact h
  · refine Run.onDrill_inCycle _ (fun w r hr => ?_) r h
    dsimp only; split
    · exact hr
    · split
      · exact hr
      · exact hr
      all_goals
        split
        · exact Run.drillBoundary_inCycle w _ hr
        · exact hr

theorem drillReturn_inCycle (fb : Feedback) (sent hold band : Int) (limit bit : Nat) (st : HeadState) (r : Run)
    (h : r.inCycle) : (drillReturn fb sent hold band limit bit st r).inCycle :=
  Run.drillStep_inCycle fb _ (Run.comparators_inCycle fb sent hold st bit _ (Run.drillTests_inCycle fb sent band _
    (Run.spindle_inCycle fb _ (Run.overload_inCycle fb limit _ (Run.recordDrill_inCycle fb r h)))))

theorem Run.feedTest_inCycle (present : Bool) (w : SetWork) (r : Run) (h : r.inCycle) : (r.feedTest present w).inCycle := by
  unfold Run.feedTest
  repeat' split
  all_goals first | exact h | rfl

theorem Run.obstructionTest_inCycle (fb : Feedback) (w : SetWork) (r : Run) (h : r.inCycle) :
    (r.obstructionTest fb w).inCycle := by
  unfold Run.obstructionTest
  repeat' split
  all_goals first | exact h | rfl

theorem Run.rivetTest_inCycle (fb : Feedback) (sent : Int) (w : SetWork) (r : Run) (h : r.inCycle) :
    (r.rivetTest fb sent w).inCycle := by
  unfold Run.rivetTest; dsimp only
  repeat' split
  all_goals first | exact h | rfl

theorem Run.squeezeTest_inCycle (fb : Feedback) (sent : Int) (w : SetWork) (r : Run) (h : r.inCycle) :
    (r.squeezeTest fb sent w).inCycle := by
  unfold Run.squeezeTest; dsimp only
  repeat' split
  all_goals first | exact h | rfl

theorem Run.dwellTest_inCycle (force : Nat) (w : SetWork) (r : Run) (h : r.inCycle) : (r.dwellTest force w).inCycle := by
  unfold Run.dwellTest
  repeat' split
  all_goals first | exact h | rfl

theorem Run.setTests_inCycle (fb : Feedback) (sent band : Int) (r : Run) (h : r.inCycle) :
    (r.setTests fb sent band).inCycle := by
  unfold Run.setTests; split
  · exact h
  · refine Run.onSet_inCycle _ (fun w r hr => ?_) r h
    split
    · exact Run.feedTest_inCycle _ w r hr
    · exact Run.obstructionTest_inCycle fb w r hr
    · exact Run.rivetTest_inCycle fb sent w r hr
    · exact Run.squeezeTest_inCycle fb sent w r hr
    · exact Run.dwellTest_inCycle _ w r hr
    · exact Run.homeTest_inCycle fb band r hr

theorem Run.setStep_inCycle (r : Run) (h : r.inCycle) : r.setStep.inCycle := by
  unfold Run.setStep; split
  · exact h
  · refine Run.onSet_inCycle _ (fun w r hr => ?_) r h
    dsimp only; split
    · exact hr
    · split
      · exact hr
      · split
        · exact hr
        · exact hr
        all_goals
          split
          · unfold Run.setBoundary; split <;> exact hr
          · exact hr

theorem Run.recordSet_inCycle (fb : Feedback) (r : Run) (h : r.inCycle) : (r.recordSet fb).inCycle :=
  Run.onSet_inCycle _ (fun _ _ hr => by exact hr) r h

theorem setReturn_inCycle (fb : Feedback) (sent hold band : Int) (limit bit : Nat) (st : HeadState) (r : Run)
    (h : r.inCycle) : (setReturn fb sent hold band limit bit st r).inCycle :=
  Run.setStep_inCycle _ (Run.comparators_inCycle fb sent hold st bit _ (Run.setTests_inCycle fb sent band _
    (Run.overload_inCycle fb limit _ (Run.recordSet_inCycle fb r h))))

theorem cycleReturn_inCycle (fb : Feedback) (sent hold band : Int) (st : HeadState) (b : Bank) (c : Cycle)
    (h : st.inCycle = true) : (cycleReturn fb sent hold band st b c).inCycle := by
  unfold cycleReturn; split
  · exact drillReturn_inCycle fb sent hold band _ _ st _ h
  · exact setReturn_inCycle fb sent hold band _ _ st _ h

theorem Head.cycleReturning_spec (w : Head) (c : Cycle) (p : Int) (h : w.cycleReturning = some (c, p)) :
    w.state.inCycle = true ∧ w.engine = some c ∧ c.sent = some p := by
  unfold Head.cycleReturning at h
  split at h
  · next hs =>
    split at h
    · cases h
    · next c' hc =>
      cases hp : c'.sent with
      | none => rw [hp] at h; cases h
      | some q => rw [hp] at h; cases h; exact ⟨hs, hc, hp⟩
  · cases h

theorem HeadMoves.putRun (m : HeadMoves P) (s : Station) (h : HeadNo) (r : Run) (hs : (s.head h).state.inCycle = true)
    (he : (s.head h).engine.isSome = true) (hr : r.inCycle) (hp : P s) : P (s.putRun h r) := by
  have h1 := m.run s h { s.head h with engine := some r.cyc, state := r.state, bank := r.bank }
    ⟨rfl, rfl, rfl, hs, hr, by simp [he]⟩ hp
  have h2 := m.raiseAll r.raised _ h1
  unfold Station.putRun
  dsimp only
  split
  · exact h2
  · refine m.finishCycle _ _ ?_ h2
    simpa using (show r.state.inCycle = true from hr)
  · exact m.toFault _ _ _ h2


theorem HeadMoves.toolReturn (m : HeadMoves P) (s : Station) (h : HeadNo) (l : List Byte) (hp : P s) :
    P (s.toolReturn h l) := by
  have h1 := m.driveReports _ h (toolFeedback l).status
    (m.quiet s h { s.head h with toolStatus := (toolFeedback l).status } ⟨rfl, rfl, rfl, rfl, rfl⟩ hp)
  unfold Station.toolReturn Station.engineReturn
  dsimp only
  split
  · exact h1
  · next c p hc =>
    obtain ⟨hs, he, _⟩ := Head.cycleReturning_spec _ c p hc
    exact m.putRun _ h _ hs (by rw [he]; rfl) (cycleReturn_inCycle _ _ _ _ _ _ _ hs) h1

theorem HeadMoves.onLimit (m : HeadMoves P) (s : Station) (h : HeadNo) (due : Head → Cycle → Bool) (f : Head → Run → Run)
    (hf : ∀ w r, r.inCycle → (f w r).inCycle) (hp : P s) : P (s.onLimit h due f) := by
  unfold Station.onLimit
  split
  · split
    · exact hp
    · next c p hc =>
      obtain ⟨hs, he, _⟩ := Head.cycleReturning_spec _ c p hc
      split
      · exact m.putRun s h _ hs (by rw [he]; rfl) (hf _ _ hs) hp
      · exact hp
  · exact hp

theorem HeadMoves.spinUpLimit (m : HeadMoves P) (s : Station) (h : HeadNo) (v : Half) (hp : P s) : P (s.spinUpLimit h v) :=
  m.onLimit s h _ _ (fun _ r hr => Run.spindle_inCycle _ r hr) hp

theorem HeadMoves.toolNotHome (m : HeadMoves P) (s : Station) (h : HeadNo) (v : Word) (b : Bool) (hp : P s) :
    P (s.toolNotHome h v b) :=
  m.onLimit s h _ _ (fun _ r hr => Run.homeTest_inCycle _ _ r hr) hp

theorem HeadMoves.rivetFeedLimit (m : HeadMoves P) (s : Station) (h : HeadNo) (b : Bool) (hp : P s) :
    P (s.rivetFeedLimit h b) :=
  m.onLimit s h _ _ (fun _ r hr => Run.onSet_inCycle _ (fun d r hr => Run.feedTest_inCycle b d r hr) r hr) hp

theorem HeadMoves.dwellComplete (m : HeadMoves P) (s : Station) (h : HeadNo) (v : Half) (hp : P s) :
    P (s.dwellComplete h v) :=
  m.onLimit s h _ _ (fun _ r hr => Run.onSet_inCycle _ (fun d r hr => Run.dwellTest_inCycle _ d r hr) r hr) hp

/-! ## Outbound sections -/

theorem HeadMoves.carriageOutbound (m : HeadMoves P) (s : Station) (h : HeadNo) (l : List Byte) (hp : P s) :
    P (s.carriageOutbound h l).1 :=
  m.quiet _ _ _ ⟨rfl, rfl, rfl, rfl, rfl⟩ hp

theorem HeadMoves.toolOutbound (m : HeadMoves P) (s : Station) (h : HeadNo) (l : List Byte) (hp : P s) :
    P (s.toolOutbound h l).1 := by
  unfold Station.toolOutbound
  split
  · exact hp
  · next c hc =>
    split
    · exact m.quiet _ _ _ ⟨rfl, rfl, rfl, rfl, by simp [hc]⟩ hp
    · exact hp

theorem HeadMoves.beginOutbound (m : HeadMoves P) (s : Station) (hp : P s) : P s.beginOutbound := by
  have aux : ∀ (t : Station) (h : HeadNo), P t →
      P (t.modHead h fun w => { w with gate := w.gate.passBegins, engine := w.engine.map Cycle.passBegins }) :=
    fun t h ht => m.quiet t h _ ⟨rfl, rfl, rfl, rfl, by simp⟩ ht
  exact aux _ 3 (aux _ 2 (aux _ 1 (aux _ 0 hp)))

end Sys2Proof.Machine
end

