-- ==== Sys2Proof/Laws/Requests.lean ====
section
/-!
SUPPORT. What each request leaves alone: a read changes nothing, and every other request changes the records of the block that
owns its matter and what that effect brings with it.
-/
namespace Sys2Proof.Machine

/-- Whatever holds of the refused answer and of every head's answer holds of a request that names a head. -/
theorem onHead_cases (h : Byte) (f : HeadNo → Station → Station × Reply) (s : Station) :
    onHead h f s = (s, .refused .badIndex) ∨ ∃ j, four? h = some j ∧ onHead h f s = f j s := by
  unfold onHead
  split
  · exact Or.inl rfl
  · next j hj => exact Or.inr ⟨j, hj, rfl⟩

theorem Station.seekIfWork_heads_only (s : Station) (h : HeadNo) : ∃ v, s.seekIfWork h = s.setHead h v := by
  unfold Station.seekIfWork
  dsimp only
  split
  · exact ⟨_, rfl⟩
  · exact ⟨s.head h, by simp [Station.setHead, Station.head]⟩

@[simp] theorem Station.seekIfWork_ring (s : Station) (h : HeadNo) : (s.seekIfWork h).ring = s.ring := by
  obtain ⟨v, hv⟩ := s.seekIfWork_heads_only h
  rw [hv]; rfl

@[simp] theorem Station.seekIfWork_table (s : Station) (h : HeadNo) : (s.seekIfWork h).table = s.table := by
  obtain ⟨v, hv⟩ := s.seekIfWork_heads_only h
  rw [hv]; rfl

@[simp] theorem Station.seekIfWork_correction (s : Station) (h : HeadNo) : (s.seekIfWork h).correction = s.correction := by
  obtain ⟨v, hv⟩ := s.seekIfWork_heads_only h
  rw [hv]; rfl

@[simp] theorem Station.seekIfWork_keepOut (s : Station) (h : HeadNo) : (s.seekIfWork h).keepOut = s.keepOut := by
  obtain ⟨v, hv⟩ := s.seekIfWork_heads_only h
  rw [hv]; rfl

@[simp] theorem Station.seekIfWork_profiles (s : Station) (h : HeadNo) : (s.seekIfWork h).profiles = s.profiles := by
  obtain ⟨v, hv⟩ := s.seekIfWork_heads_only h
  rw [hv]; rfl

@[simp] theorem Station.seekIfWork_results (s : Station) (h : HeadNo) : (s.seekIfWork h).results = s.results := by
  obtain ⟨v, hv⟩ := s.seekIfWork_heads_only h
  rw [hv]; rfl

@[simp] theorem Station.seekIfWork_mgmt (s : Station) (h : HeadNo) : (s.seekIfWork h).mgmt = s.mgmt := by
  obtain ⟨v, hv⟩ := s.seekIfWork_heads_only h
  rw [hv]; rfl

@[simp] theorem Station.seekIfWork_faults (s : Station) (h : HeadNo) : (s.seekIfWork h).faults = s.faults := by
  obtain ⟨v, hv⟩ := s.seekIfWork_heads_only h
  rw [hv]; rfl

@[simp] theorem Station.startHead_ring (s t : Station) (set : Byte) (h : HeadNo) :
    (if s.startable set h then t.engage h else t).ring = t.ring := by
  split <;> simp

@[simp] theorem Station.startHead_correction (s t : Station) (set : Byte) (h : HeadNo) :
    (if s.startable set h then t.engage h else t).correction = t.correction := by
  split <;> simp

@[simp] theorem Station.startHead_keepOut (s t : Station) (set : Byte) (h : HeadNo) :
    (if s.startable set h then t.engage h else t).keepOut = t.keepOut := by
  split <;> simp

@[simp] theorem Station.startHead_results (s t : Station) (set : Byte) (h : HeadNo) :
    (if s.startable set h then t.engage h else t).results = t.results := by
  split <;> simp

@[simp] theorem Station.startHead_mgmt (s t : Station) (set : Byte) (h : HeadNo) :
    (if s.startable set h then t.engage h else t).mgmt = t.mgmt := by
  split <;> simp

@[simp] theorem Station.startHead_faults (s t : Station) (set : Byte) (h : HeadNo) :
    (if s.startable set h then t.engage h else t).faults = t.faults := by
  split <;> simp

@[simp] theorem Station.startHead_profiles (s t : Station) (set : Byte) (h : HeadNo) :
    (if s.startable set h then t.engage h else t).profiles = t.profiles := by
  split <;> simp

@[simp] theorem jigLoad_ring (id : Word) (s : Station) : (jigLoad id s).1.ring = s.ring := by
  unfold jigLoad
  (repeat' split) <;> first | rfl | (dsimp only; (repeat' split) <;> first | rfl | simp) | simp

@[simp] theorem jigLoad_correction (id : Word) (s : Station) : (jigLoad id s).1.correction = s.correction := by
  unfold jigLoad
  (repeat' split) <;> first | rfl | (dsimp only; (repeat' split) <;> first | rfl | simp) | simp

@[simp] theorem jigLoad_keepOut (id : Word) (s : Station) : (jigLoad id s).1.keepOut = s.keepOut := by
  unfold jigLoad
  (repeat' split) <;> first | rfl | (dsimp only; (repeat' split) <;> first | rfl | simp) | simp

@[simp] theorem jigLoad_profiles (id : Word) (s : Station) : (jigLoad id s).1.profiles = s.profiles := by
  unfold jigLoad
  (repeat' split) <;> first | rfl | (dsimp only; (repeat' split) <;> first | rfl | simp) | simp

@[simp] theorem jigLoad_results (id : Word) (s : Station) : (jigLoad id s).1.results = s.results := by
  unfold jigLoad
  (repeat' split) <;> first | rfl | (dsimp only; (repeat' split) <;> first | rfl | simp) | simp

@[simp] theorem jigLoad_mgmt (id : Word) (s : Station) : (jigLoad id s).1.mgmt = s.mgmt := by
  unfold jigLoad
  (repeat' split) <;> first | rfl | (dsimp only; (repeat' split) <;> first | rfl | simp) | simp

@[simp] theorem jigLoad_faults (id : Word) (s : Station) : (jigLoad id s).1.faults = s.faults := by
  unfold jigLoad
  (repeat' split) <;> first | rfl | (dsimp only; (repeat' split) <;> first | rfl | simp) | simp

@[simp] theorem jigStart_ring (s : Station) : (jigStart s).1.ring = s.ring := by
  unfold jigStart
  split
  · rfl
  · simp [Station.eachHead]

@[simp] theorem jigStart_correction (s : Station) : (jigStart s).1.correction = s.correction := by
  unfold jigStart
  split
  · rfl
  · simp [Station.eachHead]

@[simp] theorem jigStart_keepOut (s : Station) : (jigStart s).1.keepOut = s.keepOut := by
  unfold jigStart
  split
  · rfl
  · simp [Station.eachHead]

@[simp] theorem jigStart_profiles (s : Station) : (jigStart s).1.profiles = s.profiles := by
  unfold jigStart
  split
  · rfl
  · simp [Station.eachHead]

@[simp] theorem jigStart_results (s : Station) : (jigStart s).1.results = s.results := by
  unfold jigStart
  split
  · rfl
  · simp [Station.eachHead]

@[simp] theorem jigStart_mgmt (s : Station) : (jigStart s).1.mgmt = s.mgmt := by
  unfold jigStart
  split
  · rfl
  · simp [Station.eachHead]

@[simp] theorem jigRelease_ring (s : Station) : (jigRelease s).1.ring = s.ring := by
  unfold jigRelease
  split
  · rfl
  · simp [Station.eachHead]

@[simp] theorem jigRelease_correction (s : Station) : (jigRelease s).1.correction = s.correction := by
  unfold jigRelease
  split
  · rfl
  · simp [Station.eachHead]

@[simp] theorem jigRelease_keepOut (s : Station) : (jigRelease s).1.keepOut = s.keepOut := by
  unfold jigRelease
  split
  · rfl
  · simp [Station.eachHead]

@[simp] theorem jigRelease_profiles (s : Station) : (jigRelease s).1.profiles = s.profiles := by
  unfold jigRelease
  split
  · rfl
  · simp [Station.eachHead]

@[simp] theorem jigRelease_results (s : Station) : (jigRelease s).1.results = s.results := by
  unfold jigRelease
  split
  · rfl
  · simp [Station.eachHead]

@[simp] theorem jigRelease_mgmt (s : Station) : (jigRelease s).1.mgmt = s.mgmt := by
  unfold jigRelease
  split
  · rfl
  · simp [Station.eachHead]

@[simp] theorem jigRelease_faults (s : Station) : (jigRelease s).1.faults = s.faults := by
  unfold jigRelease
  split
  · rfl
  · simp [Station.eachHead]

@[simp] theorem holeWriteA_ring (index : Half) (x t : Word) (face : Byte) (s : Station) :
    (holeWriteA index x t face s).1.ring = s.ring := by
  unfold holeWriteA
  (repeat' split) <;> first | rfl | (dsimp only; (repeat' split) <;> first | rfl | simp) | simp

@[simp] theorem holeWriteA_correction (index : Half) (x t : Word) (face : Byte) (s : Station) :
    (holeWriteA index x t face s).1.correction = s.correction := by
  unfold holeWriteA
  (repeat' split) <;> first | rfl | (dsimp only; (repeat' split) <;> first | rfl | simp) | simp

@[simp] theorem holeWriteA_heads (index : Half) (x t : Word) (face : Byte) (s : Station) :
    (holeWriteA index x t face s).1.heads = s.heads := by
  unfold holeWriteA
  (repeat' split) <;> first | rfl | (dsimp only; (repeat' split) <;> first | rfl | simp) | simp

@[simp] theorem holeWriteA_keepOut (index : Half) (x t : Word) (face : Byte) (s : Station) :
    (holeWriteA index x t face s).1.keepOut = s.keepOut := by
  unfold holeWriteA
  (repeat' split) <;> first | rfl | (dsimp only; (repeat' split) <;> first | rfl | simp) | simp

@[simp] theorem holeWriteA_profiles (index : Half) (x t : Word) (face : Byte) (s : Station) :
    (holeWriteA index x t face s).1.profiles = s.profiles := by
  unfold holeWriteA
  (repeat' split) <;> first | rfl | (dsimp only; (repeat' split) <;> first | rfl | simp) | simp

@[simp] theorem holeWriteA_results (index : Half) (x t : Word) (face : Byte) (s : Station) :
    (holeWriteA index x t face s).1.results = s.results := by
  unfold holeWriteA
  (repeat' split) <;> first | rfl | (dsimp only; (repeat' split) <;> first | rfl | simp) | simp

@[simp] theorem holeWriteA_mgmt (index : Half) (x t : Word) (face : Byte) (s : Station) :
    (holeWriteA index x t face s).1.mgmt = s.mgmt := by
  unfold holeWriteA
  (repeat' split) <;> first | rfl | (dsimp only; (repeat' split) <;> first | rfl | simp) | simp

@[simp] theorem holeWriteA_faults (index : Half) (x t : Word) (face : Byte) (s : Station) :
    (holeWriteA index x t face s).1.faults = s.faults := by
  unfold holeWriteA
  (repeat' split) <;> first | rfl | (dsimp only; (repeat' split) <;> first | rfl | simp) | simp

@[simp] theorem holeWriteB_ring (index : Half) (drill set : Byte) (depth stroke : Word) (s : Station) :
    (holeWriteB index drill set depth stroke s).1.ring = s.ring := by
  unfold holeWriteB
  (repeat' split) <;> first | rfl | (dsimp only; (repeat' split) <;> first | rfl | simp) | simp

@[simp] theorem holeWriteB_correction (index : Half) (drill set : Byte) (depth stroke : Word) (s : Station) :
    (holeWriteB index drill set depth stroke s).1.correction = s.correction := by
  unfold holeWriteB
  (repeat' split) <;> first | rfl | (dsimp only; (repeat' split) <;> first | rfl | simp) | simp

@[simp] theorem holeWriteB_keepOut (index : Half) (drill set : Byte) (depth stroke : Word) (s : Station) :
    (holeWriteB index drill set depth stroke s).1.keepOut = s.keepOut := by
  unfold holeWriteB
  (repeat' split) <;> first | rfl | (dsimp only; (repeat' split) <;> first | rfl | simp) | simp

@[simp] theorem holeWriteB_profiles (index : Half) (drill set : Byte) (depth stroke : Word) (s : Station) :
    (holeWriteB index drill set depth stroke s).1.profiles = s.profiles := by
  unfold holeWriteB
  (repeat' split) <;> first | rfl | (dsimp only; (repeat' split) <;> first | rfl | simp) | simp

@[simp] theorem holeWriteB_results (index : Half) (drill set : Byte) (depth stroke : Word) (s : Station) :
    (holeWriteB index drill set depth stroke s).1.results = s.results := by
  unfold holeWriteB
  (repeat' split) <;> first | rfl | (dsimp only; (repeat' split) <;> first | rfl | simp) | simp

@[simp] theorem holeWriteB_mgmt (index : Half) (drill set : Byte) (depth stroke : Word) (s : Station) :
    (holeWriteB index drill set depth stroke s).1.mgmt = s.mgmt := by
  unfold holeWriteB
  (repeat' split) <;> first | rfl | (dsimp only; (repeat' split) <;> first | rfl | simp) | simp

@[simp] theorem holeWriteB_faults (index : Half) (drill set : Byte) (depth stroke : Word) (s : Station) :
    (holeWriteB index drill set depth stroke s).1.faults = s.faults := by
  unfold holeWriteB
  (repeat' split) <;> first | rfl | (dsimp only; (repeat' split) <;> first | rfl | simp) | simp

@[simp] theorem holeSkip_ring (index : Half) (s : Station) : (holeSkip index s).1.ring = s.ring := by
  unfold holeSkip
  (repeat' split) <;> first | rfl | (dsimp only; (repeat' split) <;> first | rfl | simp) | simp

@[simp] theorem holeSkip_correction (index : Half) (s : Station) : (holeSkip index s).1.correction = s.correction := by
  unfold holeSkip
  (repeat' split) <;> first | rfl | (dsimp only; (repeat' split) <;> first | rfl | simp) | simp

@[simp] theorem holeSkip_heads (index : Half) (s : Station) : (holeSkip index s).1.heads = s.heads := by
  unfold holeSkip
  (repeat' split) <;> first | rfl | (dsimp only; (repeat' split) <;> first | rfl | simp) | simp

@[simp] theorem holeSkip_keepOut (index : Half) (s : Station) : (holeSkip index s).1.keepOut = s.keepOut := by
  unfold holeSkip
  (repeat' split) <;> first | rfl | (dsimp only; (repeat' split) <;> first | rfl | simp) | simp

@[simp] theorem holeSkip_profiles (index : Half) (s : Station) : (holeSkip index s).1.profiles = s.profiles := by
  unfold holeSkip
  (repeat' split) <;> first | rfl | (dsimp only; (repeat' split) <;> first | rfl | simp) | simp

@[simp] theorem holeSkip_results (index : Half) (s : Station) : (holeSkip index s).1.results = s.results := by
  unfold holeSkip
  (repeat' split) <;> first | rfl | (dsimp only; (repeat' split) <;> first | rfl | simp) | simp

@[simp] theorem holeSkip_mgmt (index : Half) (s : Station) : (holeSkip index s).1.mgmt = s.mgmt := by
  unfold holeSkip
  (repeat' split) <;> first | rfl | (dsimp only; (repeat' split) <;> first | rfl | simp) | simp

@[simp] theorem holeRead_keeps (index : Half) (s : Station) : (holeRead index s).1 = s := by
  unfold holeRead
  (repeat' split) <;> rfl

@[simp] theorem correctionPoint_ring (k : Byte) (x dx dt : Word) (s : Station) :
    (correctionPoint k x dx dt s).1.ring = s.ring := by
  unfold correctionPoint
  (repeat' split) <;> first | rfl | (dsimp only; (repeat' split) <;> first | rfl | simp) | simp

@[simp] theorem correctionPoint_table (k : Byte) (x dx dt : Word) (s : Station) :
    (correctionPoint k x dx dt s).1.table = s.table := by
  unfold correctionPoint
  (repeat' split) <;> first | rfl | (dsimp only; (repeat' split) <;> first | rfl | simp) | simp

@[simp] theorem correctionPoint_heads (k : Byte) (x dx dt : Word) (s : Station) :
    (correctionPoint k x dx dt s).1.heads = s.heads := by
  unfold correctionPoint
  (repeat' split) <;> first | rfl | (dsimp only; (repeat' split) <;> first | rfl | simp) | simp

@[simp] theorem correctionPoint_keepOut (k : Byte) (x dx dt : Word) (s : Station) :
    (correctionPoint k x dx dt s).1.keepOut = s.keepOut := by
  unfold correctionPoint
  (repeat' split) <;> first | rfl | (dsimp only; (repeat' split) <;> first | rfl | simp) | simp

@[simp] theorem correctionPoint_profiles (k : Byte) (x dx dt : Word) (s : Station) :
    (correctionPoint k x dx dt s).1.profiles = s.profiles := by
  unfold correctionPoint
  (repeat' split) <;> first | rfl | (dsimp only; (repeat' split) <;> first | rfl | simp) | simp

@[simp] theorem correctionPoint_results (k : Byte) (x dx dt : Word) (s : Station) :
    (correctionPoint k x dx dt s).1.results = s.results := by
  unfold correctionPoint
  (repeat' split) <;> first | rfl | (dsimp only; (repeat' split) <;> first | rfl | simp) | simp

@[simp] theorem correctionPoint_mgmt (k : Byte) (x dx dt : Word) (s : Station) :
    (correctionPoint k x dx dt s).1.mgmt = s.mgmt := by
  unfold correctionPoint
  (repeat' split) <;> first | rfl | (dsimp only; (repeat' split) <;> first | rfl | simp) | simp

@[simp] theorem correctionPoint_faults (k : Byte) (x dx dt : Word) (s : Station) :
    (correctionPoint k x dx dt s).1.faults = s.faults := by
  unfold correctionPoint
  (repeat' split) <;> first | rfl | (dsimp only; (repeat' split) <;> first | rfl | simp) | simp

@[simp] theorem correctionCommit_ring (m : Byte) (s : Station) : (correctionCommit m s).1.ring = s.ring := by
  unfold correctionCommit
  (repeat' split) <;> first | rfl | (dsimp only; (repeat' split) <;> first | rfl | simp) | simp

@[simp] theorem correctionCommit_table (m : Byte) (s : Station) : (correctionCommit m s).1.table = s.table := by
  unfold correctionCommit
  (repeat' split) <;> first | rfl | (dsimp only; (repeat' split) <;> first | rfl | simp) | simp

@[simp] theorem correctionCommit_heads (m : Byte) (s : Station) : (correctionCommit m s).1.heads = s.heads := by
  unfold correctionCommit
  (repeat' split) <;> first | rfl | (dsimp only; (repeat' split) <;> first | rfl | simp) | simp

@[simp] theorem correctionCommit_keepOut (m : Byte) (s : Station) : (correctionCommit m s).1.keepOut = s.keepOut := by
  unfold correctionCommit
  (repeat' split) <;> first | rfl | (dsimp only; (repeat' split) <;> first | rfl | simp) | simp

@[simp] theorem correctionCommit_profiles (m : Byte) (s : Station) : (correctionCommit m s).1.profiles = s.profiles := by
  unfold correctionCommit
  (repeat' split) <;> first | rfl | (dsimp only; (repeat' split) <;> first | rfl | simp) | simp

@[simp] theorem correctionCommit_results (m : Byte) (s : Station) : (correctionCommit m s).1.results = s.results := by
  unfold correctionCommit
  (repeat' split) <;> first | rfl | (dsimp only; (repeat' split) <;> first | rfl | simp) | simp

@[simp] theorem correctionCommit_mgmt (m : Byte) (s : Station) : (correctionCommit m s).1.mgmt = s.mgmt := by
  unfold correctionCommit
  (repeat' split) <;> first | rfl | (dsimp only; (repeat' split) <;> first | rfl | simp) | simp

@[simp] theorem correctionCommit_faults (m : Byte) (s : Station) : (correctionCommit m s).1.faults = s.faults := by
  unfold correctionCommit
  (repeat' split) <;> first | rfl | (dsimp only; (repeat' split) <;> first | rfl | simp) | simp

@[simp] theorem correctionRead_keeps (which : Byte) (k : Half) (s : Station) : (correctionRead which k s).1 = s := by
  unfold correctionRead
  (repeat' split) <;> rfl

@[simp] theorem profileBegin_ring (p kind : Byte) (s : Station) : (profileBegin p kind s).1.ring = s.ring := by
  unfold profileBegin
  (repeat' split) <;> first | rfl | (dsimp only; (repeat' split) <;> first | rfl | simp) | simp

@[simp] theorem profileBegin_table (p kind : Byte) (s : Station) : (profileBegin p kind s).1.table = s.table := by
  unfold profileBegin
  (repeat' split) <;> first | rfl | (dsimp only; (repeat' split) <;> first | rfl | simp) | simp

@[simp] theorem profileBegin_correction (p kind : Byte) (s : Station) :
    (profileBegin p kind s).1.correction = s.correction := by
  unfold profileBegin
  (repeat' split) <;> first | rfl | (dsimp only; (repeat' split) <;> first | rfl | simp) | simp

@[simp] theorem profileBegin_heads (p kind : Byte) (s : Station) : (profileBegin p kind s).1.heads = s.heads := by
  unfold profileBegin
  (repeat' split) <;> first | rfl | (dsimp only; (repeat' split) <;> first | rfl | simp) | simp

@[simp] theorem profileBegin_keepOut (p kind : Byte) (s : Station) : (profileBegin p kind s).1.keepOut = s.keepOut := by
  unfold profileBegin
  (repeat' split) <;> first | rfl | (dsimp only; (repeat' split) <;> first | rfl | simp) | simp

@[simp] theorem profileBegin_results (p kind : Byte) (s : Station) : (profileBegin p kind s).1.results = s.results := by
  unfold profileBegin
  (repeat' split) <;> first | rfl | (dsimp only; (repeat' split) <;> first | rfl | simp) | simp

@[simp] theorem profileBegin_mgmt (p kind : Byte) (s : Station) : (profileBegin p kind s).1.mgmt = s.mgmt := by
  unfold profileBegin
  (repeat' split) <;> first | rfl | (dsimp only; (repeat' split) <;> first | rfl | simp) | simp

@[simp] theorem profileBegin_faults (p kind : Byte) (s : Station) : (profileBegin p kind s).1.faults = s.faults := by
  unfold profileBegin
  (repeat' split) <;> first | rfl | (dsimp only; (repeat' split) <;> first | rfl | simp) | simp

@[simp] theorem profileFields_ring (p group : Byte) (values : List Byte) (s : Station) :
    (profileFields p group values s).1.ring = s.ring := by
  unfold profileFields
  (repeat' split) <;> first | rfl | (dsimp only; (repeat' split) <;> first | rfl | simp) | simp

@[simp] theorem profileFields_table (p group : Byte) (values : List Byte) (s : Station) :
    (profileFields p group values s).1.table = s.table := by
  unfold profileFields
  (repeat' split) <;> first | rfl | (dsimp only; (repeat' split) <;> first | rfl | simp) | simp

@[simp] theorem profileFields_correction (p group : Byte) (values : List Byte) (s : Station) :
    (profileFields p group values s).1.correction = s.correction := by
  unfold profileFields
  (repeat' split) <;> first | rfl | (dsimp only; (repeat' split) <;> first | rfl | simp) | simp

@[simp] theorem profileFields_heads (p group : Byte) (values : List Byte) (s : Station) :
    (profileFields p group values s).1.heads = s.heads := by
  unfold profileFields
  (repeat' split) <;> first | rfl | (dsimp only; (repeat' split) <;> first | rfl | simp) | simp

@[simp] theorem profileFields_keepOut (p group : Byte) (values : List Byte) (s : Station) :
    (profileFields p group values s).1.keepOut = s.keepOut := by
  unfold profileFields
  (repeat' split) <;> first | rfl | (dsimp only; (repeat' split) <;> first | rfl | simp) | simp

@[simp] theorem profileFields_results (p group : Byte) (values : List Byte) (s : Station) :
    (profileFields p group values s).1.results = s.results := by
  unfold profileFields
  (repeat' split) <;> first | rfl | (dsimp only; (repeat' split) <;> first | rfl | simp) | simp

@[simp] theorem profileFields_mgmt (p group : Byte) (values : List Byte) (s : Station) :
    (profileFields p group values s).1.mgmt = s.mgmt := by
  unfold profileFields
  (repeat' split) <;> first | rfl | (dsimp only; (repeat' split) <;> first | rfl | simp) | simp

@[simp] theorem profileFields_faults (p group : Byte) (values : List Byte) (s : Station) :
    (profileFields p group values s).1.faults = s.faults := by
  unfold profileFields
  (repeat' split) <;> first | rfl | (dsimp only; (repeat' split) <;> first | rfl | simp) | simp

@[simp] theorem profileLayer_ring (p i : Byte) (thickness feed : Word) (s : Station) :
    (profileLayer p i thickness feed s).1.ring = s.ring := by
  unfold profileLayer
  (repeat' split) <;> first | rfl | (dsimp only; (repeat' split) <;> first | rfl | simp) | simp

@[simp] theorem profileLayer_table (p i : Byte) (thickness feed : Word) (s : Station) :
    (profileLayer p i thickness feed s).1.table = s.table := by
  unfold profileLayer
  (repeat' split) <;> first | rfl | (dsimp only; (repeat' split) <;> first | rfl | simp) | simp

@[simp] theorem profileLayer_correction (p i : Byte) (thickness feed : Word) (s : Station) :
    (profileLayer p i thickness feed s).1.correction = s.correction := by
  unfold profileLayer
  (repeat' split) <;> first | rfl | (dsimp only; (repeat' split) <;> first | rfl | simp) | simp

@[simp] theorem profileLayer_heads (p i : Byte) (thickness feed : Word) (s : Station) :
    (profileLayer p i thickness feed s).1.heads = s.heads := by
  unfold profileLayer
  (repeat' split) <;> first | rfl | (dsimp only; (repeat' split) <;> first | rfl | simp) | simp

@[simp] theorem profileLayer_keepOut (p i : Byte) (thickness feed : Word) (s : Station) :
    (profileLayer p i thickness feed s).1.keepOut = s.keepOut := by
  unfold profileLayer
  (repeat' split) <;> first | rfl | (dsimp only; (repeat' split) <;> first | rfl | simp) | simp

@[simp] theorem profileLayer_results (p i : Byte) (thickness feed : Word) (s : Station) :
    (profileLayer p i thickness feed s).1.results = s.results := by
  unfold profileLayer
  (repeat' split) <;> first | rfl | (dsimp only; (repeat' split) <;> first | rfl | simp) | simp

@[simp] theorem profileLayer_mgmt (p i : Byte) (thickness feed : Word) (s : Station) :
    (profileLayer p i thickness feed s).1.mgmt = s.mgmt := by
  unfold profileLayer
  (repeat' split) <;> first | rfl | (dsimp only; (repeat' split) <;> first | rfl | simp) | simp

@[simp] theorem profileLayer_faults (p i : Byte) (thickness feed : Word) (s : Station) :
    (profileLayer p i thickness feed s).1.faults = s.faults := by
  unfold profileLayer
  (repeat' split) <;> first | rfl | (dsimp only; (repeat' split) <;> first | rfl | simp) | simp

@[simp] theorem profileComparator_ring (p k source condition : Byte) (low high : Word) (mask : Half) (count action : Byte) (s : Station) :
    (profileComparator p k source condition low high mask count action s).1.ring = s.ring := by
  unfold profileComparator
  (repeat' split) <;> first | rfl | (dsimp only; (repeat' split) <;> first | rfl | simp) | simp

@[simp] theorem profileComparator_table (p k source condition : Byte) (low high : Word) (mask : Half) (count action : Byte) (s : Station) :
    (profileComparator p k source condition low high mask count action s).1.table = s.table := by
  unfold profileComparator
  (repeat' split) <;> first | rfl | (dsimp only; (repeat' split) <;> first | rfl | simp) | simp

@[simp] theorem profileComparator_correction (p k source condition : Byte) (low high : Word) (mask : Half) (count action : Byte) (s : Station) :
    (profileComparator p k source condition low high mask count action s).1.correction = s.correction := by
  unfold profileComparator
  (repeat' split) <;> first | rfl | (dsimp only; (repeat' split) <;> first | rfl | simp) | simp

@[simp] theorem profileComparator_heads (p k source condition : Byte) (low high : Word) (mask : Half) (count action : Byte) (s : Station) :
    (profileComparator p k source condition low high mask count action s).1.heads = s.heads := by
  unfold profileComparator
  (repeat' split) <;> first | rfl | (dsimp only; (repeat' split) <;> first | rfl | simp) | simp

@[simp] theorem profileComparator_keepOut (p k source condition : Byte) (low high : Word) (mask : Half) (count action : Byte) (s : Station) :
    (profileComparator p k source condition low high mask count action s).1.keepOut = s.keepOut := by
  unfold profileComparator
  (repeat' split) <;> first | rfl | (dsimp only; (repeat' split) <;> first | rfl | simp) | simp

@[simp] theorem profileComparator_results (p k source condition : Byte) (low high : Word) (mask : Half) (count action : Byte) (s : Station) :
    (profileComparator p k source condition low high mask count action s).1.results = s.results := by
  unfold profileComparator
  (repeat' split) <;> first | rfl | (dsimp only; (repeat' split) <;> first | rfl | simp) | simp

@[simp] theorem profileComparator_mgmt (p k source condition : Byte) (low high : Word) (mask : Half) (count action : Byte) (s : Station) :
    (profileComparator p k source condition low high mask count action s).1.mgmt = s.mgmt := by
  unfold profileComparator
  (repeat' split) <;> first | rfl | (dsimp only; (repeat' split) <;> first | rfl | simp) | simp

@[simp] theorem profileComparator_faults (p k source condition : Byte) (low high : Word) (mask : Half) (count action : Byte) (s : Station) :
    (profileComparator p k source condition low high mask count action s).1.faults = s.faults := by
  unfold profileComparator
  (repeat' split) <;> first | rfl | (dsimp only; (repeat' split) <;> first | rfl | simp) | simp

@[simp] theorem profileEnd_ring (p : Byte) (s : Station) : (profileEnd p s).1.ring = s.ring := by
  unfold profileEnd
  (repeat' split) <;> first | rfl | (dsimp only; split <;> rfl)

@[simp] theorem profileEnd_table (p : Byte) (s : Station) : (profileEnd p s).1.table = s.table := by
  unfold profileEnd
  (repeat' split) <;> first | rfl | (dsimp only; split <;> rfl)

@[simp] theorem profileEnd_correction (p : Byte) (s : Station) : (profileEnd p s).1.correction = s.correction := by
  unfold profileEnd
  (repeat' split) <;> first | rfl | (dsimp only; split <;> rfl)

@[simp] theorem profileEnd_heads (p : Byte) (s : Station) : (profileEnd p s).1.heads = s.heads := by
  unfold profileEnd
  (repeat' split) <;> first | rfl | (dsimp only; split <;> rfl)

@[simp] theorem profileEnd_keepOut (p : Byte) (s : Station) : (profileEnd p s).1.keepOut = s.keepOut := by
  unfold profileEnd
  (repeat' split) <;> first | rfl | (dsimp only; split <;> rfl)

@[simp] theorem profileEnd_results (p : Byte) (s : Station) : (profileEnd p s).1.results = s.results := by
  unfold profileEnd
  (repeat' split) <;> first | rfl | (dsimp only; split <;> rfl)

@[simp] theorem profileEnd_mgmt (p : Byte) (s : Station) : (profileEnd p s).1.mgmt = s.mgmt := by
  unfold profileEnd
  (repeat' split) <;> first | rfl | (dsimp only; split <;> rfl)

@[simp] theorem profileRead_keeps (p part : Byte) (s : Station) : (profileRead p part s).1 = s := by
  unfold profileRead
  (repeat' split) <;> rfl

@[simp] theorem headConfig_ring (h kind face group : Byte) (ox ot w band : Word) (count : Byte) (shift : Word) (mode : Byte) (home : Word) (s : Station) :
    (headConfig h kind face group ox ot w band count shift mode home s).1.ring = s.ring := by
  unfold headConfig onHead
  (repeat' split) <;> first | rfl | (dsimp only; (repeat' split) <;> first | rfl | simp) | simp

@[simp] theorem headConfig_table (h kind face group : Byte) (ox ot w band : Word) (count : Byte) (shift : Word) (mode : Byte) (home : Word) (s : Station) :
    (headConfig h kind face group ox ot w band count shift mode home s).1.table = s.table := by
  unfold headConfig onHead
  (repeat' split) <;> first | rfl | (dsimp only; (repeat' split) <;> first | rfl | simp) | simp

@[simp] theorem headConfig_correction (h kind face group : Byte) (ox ot w band : Word) (count : Byte) (shift : Word) (mode : Byte) (home : Word) (s : Station) :
    (headConfig h kind face group ox ot w band count shift mode home s).1.correction = s.correction := by
  unfold headConfig onHead
  (repeat' split) <;> first | rfl | (dsimp only; (repeat' split) <;> first | rfl | simp) | simp

@[simp] theorem headConfig_keepOut (h kind face group : Byte) (ox ot w band : Word) (count : Byte) (shift : Word) (mode : Byte) (home : Word) (s : Station) :
    (headConfig h kind face group ox ot w band count shift mode home s).1.keepOut = s.keepOut := by
  unfold headConfig onHead
  (repeat' split) <;> first | rfl | (dsimp only; (repeat' split) <;> first | rfl | simp) | simp

@[simp] theorem headConfig_profiles (h kind face group : Byte) (ox ot w band : Word) (count : Byte) (shift : Word) (mode : Byte) (home : Word) (s : Station) :
    (headConfig h kind face group ox ot w band count shift mode home s).1.profiles = s.profiles := by
  unfold headConfig onHead
  (repeat' split) <;> first | rfl | (dsimp only; (repeat' split) <;> first | rfl | simp) | simp

@[simp] theorem headConfig_results (h kind face group : Byte) (ox ot w band : Word) (count : Byte) (shift : Word) (mode : Byte) (home : Word) (s : Station) :
    (headConfig h kind face group ox ot w band count shift mode home s).1.results = s.results := by
  unfold headConfig onHead
  (repeat' split) <;> first | rfl | (dsimp only; (repeat' split) <;> first | rfl | simp) | simp

@[simp] theorem headConfig_mgmt (h kind face group : Byte) (ox ot w band : Word) (count : Byte) (shift : Word) (mode : Byte) (home : Word) (s : Station) :
    (headConfig h kind face group ox ot w band count shift mode home s).1.mgmt = s.mgmt := by
  unfold headConfig onHead
  (repeat' split) <;> first | rfl | (dsimp only; (repeat' split) <;> first | rfl | simp) | simp

@[simp] theorem headConfig_faults (h kind face group : Byte) (ox ot w band : Word) (count : Byte) (shift : Word) (mode : Byte) (home : Word) (s : Station) :
    (headConfig h kind face group ox ot w band count shift mode home s).1.faults = s.faults := by
  unfold headConfig onHead
  (repeat' split) <;> first | rfl | (dsimp only; (repeat' split) <;> first | rfl | simp) | simp

@[simp] theorem headEnable_ring (h : Byte) (s : Station) : (headEnable h s).1.ring = s.ring := by
  unfold headEnable onHead
  (repeat' split) <;> first | rfl | (dsimp only; (repeat' split) <;> first | rfl | simp) | simp

@[simp] theorem headEnable_table (h : Byte) (s : Station) : (headEnable h s).1.table = s.table := by
  unfold headEnable onHead
  (repeat' split) <;> first | rfl | (dsimp only; (repeat' split) <;> first | rfl | simp) | simp

@[simp] theorem headEnable_correction (h : Byte) (s : Station) : (headEnable h s).1.correction = s.correction := by
  unfold headEnable onHead
  (repeat' split) <;> first | rfl | (dsimp only; (repeat' split) <;> first | rfl | simp) | simp

@[simp] theorem headEnable_keepOut (h : Byte) (s : Station) : (headEnable h s).1.keepOut = s.keepOut := by
  unfold headEnable onHead
  (repeat' split) <;> first | rfl | (dsimp only; (repeat' split) <;> first | rfl | simp) | simp

@[simp] theorem headEnable_profiles (h : Byte) (s : Station) : (headEnable h s).1.profiles = s.profiles := by
  unfold headEnable onHead
  (repeat' split) <;> first | rfl | (dsimp only; (repeat' split) <;> first | rfl | simp) | simp

@[simp] theorem headEnable_results (h : Byte) (s : Station) : (headEnable h s).1.results = s.results := by
  unfold headEnable onHead
  (repeat' split) <;> first | rfl | (dsimp only; (repeat' split) <;> first | rfl | simp) | simp

@[simp] theorem headEnable_mgmt (h : Byte) (s : Station) : (headEnable h s).1.mgmt = s.mgmt := by
  unfold headEnable onHead
  (repeat' split) <;> first | rfl | (dsimp only; (repeat' split) <;> first | rfl | simp) | simp

@[simp] theorem headEnable_faults (h : Byte) (s : Station) : (headEnable h s).1.faults = s.faults := by
  unfold headEnable onHead
  (repeat' split) <;> first | rfl | (dsimp only; (repeat' split) <;> first | rfl | simp) | simp

@[simp] theorem headDisable_ring (h : Byte) (s : Station) : (headDisable h s).1.ring = s.ring := by
  unfold headDisable onHead
  (repeat' split) <;> first | rfl | (dsimp only; (repeat' split) <;> first | rfl | simp) | simp

@[simp] theorem headDisable_correction (h : Byte) (s : Station) : (headDisable h s).1.correction = s.correction := by
  unfold headDisable onHead
  (repeat' split) <;> first | rfl | (dsimp only; (repeat' split) <;> first | rfl | simp) | simp

@[simp] theorem headDisable_keepOut (h : Byte) (s : Station) : (headDisable h s).1.keepOut = s.keepOut := by
  unfold headDisable onHead
  (repeat' split) <;> first | rfl | (dsimp only; (repeat' split) <;> first | rfl | simp) | simp

@[simp] theorem headDisable_profiles (h : Byte) (s : Station) : (headDisable h s).1.profiles = s.profiles := by
  unfold headDisable onHead
  (repeat' split) <;> first | rfl | (dsimp only; (repeat' split) <;> first | rfl | simp) | simp

@[simp] theorem headDisable_results (h : Byte) (s : Station) : (headDisable h s).1.results = s.results := by
  unfold headDisable onHead
  (repeat' split) <;> first | rfl | (dsimp only; (repeat' split) <;> first | rfl | simp) | simp

@[simp] theorem headDisable_mgmt (h : Byte) (s : Station) : (headDisable h s).1.mgmt = s.mgmt := by
  unfold headDisable onHead
  (repeat' split) <;> first | rfl | (dsimp only; (repeat' split) <;> first | rfl | simp) | simp

@[simp] theorem headDisable_faults (h : Byte) (s : Station) : (headDisable h s).1.faults = s.faults := by
  unfold headDisable onHead
  (repeat' split) <;> first | rfl | (dsimp only; (repeat' split) <;> first | rfl | simp) | simp

@[simp] theorem headClear_ring (h : Byte) (s : Station) : (headClear h s).1.ring = s.ring := by
  unfold headClear onHead
  (repeat' split) <;> first | rfl | (dsimp only; (repeat' split) <;> first | rfl | simp) | simp

@[simp] theorem headClear_table (h : Byte) (s : Station) : (headClear h s).1.table = s.table := by
  unfold headClear onHead
  (repeat' split) <;> first | rfl | (dsimp only; (repeat' split) <;> first | rfl | simp) | simp

@[simp] theorem headClear_correction (h : Byte) (s : Station) : (headClear h s).1.correction = s.correction := by
  unfold headClear onHead
  (repeat' split) <;> first | rfl | (dsimp only; (repeat' split) <;> first | rfl | simp) | simp

@[simp] theorem headClear_keepOut (h : Byte) (s : Station) : (headClear h s).1.keepOut = s.keepOut := by
  unfold headClear onHead
  (repeat' split) <;> first | rfl | (dsimp only; (repeat' split) <;> first | rfl | simp) | simp

@[simp] theorem headClear_profiles (h : Byte) (s : Station) : (headClear h s).1.profiles = s.profiles := by
  unfold headClear onHead
  (repeat' split) <;> first | rfl | (dsimp only; (repeat' split) <;> first | rfl | simp) | simp

@[simp] theorem headClear_results (h : Byte) (s : Station) : (headClear h s).1.results = s.results := by
  unfold headClear onHead
  (repeat' split) <;> first | rfl | (dsimp only; (repeat' split) <;> first | rfl | simp) | simp

@[simp] theorem headClear_mgmt (h : Byte) (s : Station) : (headClear h s).1.mgmt = s.mgmt := by
  unfold headClear onHead
  (repeat' split) <;> first | rfl | (dsimp only; (repeat' split) <;> first | rfl | simp) | simp

@[simp] theorem headClear_faults (h : Byte) (s : Station) : (headClear h s).1.faults = s.faults := by
  unfold headClear onHead
  (repeat' split) <;> first | rfl | (dsimp only; (repeat' split) <;> first | rfl | simp) | simp

@[simp] theorem assign_ring (h : Byte) (i : Half) (s : Station) : (assign h i s).1.ring = s.ring := by
  unfold assign onHead assignTo
  (repeat' split) <;> first | rfl | (dsimp only; (repeat' split) <;> first | rfl | simp) | simp

@[simp] theorem assign_table (h : Byte) (i : Half) (s : Station) : (assign h i s).1.table = s.table := by
  unfold assign onHead assignTo
  (repeat' split) <;> first | rfl | (dsimp only; (repeat' split) <;> first | rfl | simp) | simp

@[simp] theorem assign_correction (h : Byte) (i : Half) (s : Station) : (assign h i s).1.correction = s.correction := by
  unfold assign onHead assignTo
  (repeat' split) <;> first | rfl | (dsimp only; (repeat' split) <;> first | rfl | simp) | simp

@[simp] theorem assign_keepOut (h : Byte) (i : Half) (s : Station) : (assign h i s).1.keepOut = s.keepOut := by
  unfold assign onHead assignTo
  (repeat' split) <;> first | rfl | (dsimp only; (repeat' split) <;> first | rfl | simp) | simp

@[simp] theorem assign_profiles (h : Byte) (i : Half) (s : Station) : (assign h i s).1.profiles = s.profiles := by
  unfold assign onHead assignTo
  (repeat' split) <;> first | rfl | (dsimp only; (repeat' split) <;> first | rfl | simp) | simp

@[simp] theorem assign_results (h : Byte) (i : Half) (s : Station) : (assign h i s).1.results = s.results := by
  unfold assign onHead assignTo
  (repeat' split) <;> first | rfl | (dsimp only; (repeat' split) <;> first | rfl | simp) | simp

@[simp] theorem assign_mgmt (h : Byte) (i : Half) (s : Station) : (assign h i s).1.mgmt = s.mgmt := by
  unfold assign onHead assignTo
  (repeat' split) <;> first | rfl | (dsimp only; (repeat' split) <;> first | rfl | simp) | simp

@[simp] theorem assign_faults (h : Byte) (i : Half) (s : Station) : (assign h i s).1.faults = s.faults := by
  unfold assign onHead assignTo
  (repeat' split) <;> first | rfl | (dsimp only; (repeat' split) <;> first | rfl | simp) | simp

@[simp] theorem withdraw_ring (h : Byte) (s : Station) : (withdraw h s).1.ring = s.ring := by
  unfold withdraw onHead
  (repeat' split) <;> first | rfl | (dsimp only; (repeat' split) <;> first | rfl | simp) | simp

@[simp] theorem withdraw_table (h : Byte) (s : Station) : (withdraw h s).1.table = s.table := by
  unfold withdraw onHead
  (repeat' split) <;> first | rfl | (dsimp only; (repeat' split) <;> first | rfl | simp) | simp

@[simp] theorem withdraw_correction (h : Byte) (s : Station) : (withdraw h s).1.correction = s.correction := by
  unfold withdraw onHead
  (repeat' split) <;> first | rfl | (dsimp only; (repeat' split) <;> first | rfl | simp) | simp

@[simp] theorem withdraw_keepOut (h : Byte) (s : Station) : (withdraw h s).1.keepOut = s.keepOut := by
  unfold withdraw onHead
  (repeat' split) <;> first | rfl | (dsimp only; (repeat' split) <;> first | rfl | simp) | simp

@[simp] theorem withdraw_profiles (h : Byte) (s : Station) : (withdraw h s).1.profiles = s.profiles := by
  unfold withdraw onHead
  (repeat' split) <;> first | rfl | (dsimp only; (repeat' split) <;> first | rfl | simp) | simp

@[simp] theorem withdraw_results (h : Byte) (s : Station) : (withdraw h s).1.results = s.results := by
  unfold withdraw onHead
  (repeat' split) <;> first | rfl | (dsimp only; (repeat' split) <;> first | rfl | simp) | simp

@[simp] theorem withdraw_mgmt (h : Byte) (s : Station) : (withdraw h s).1.mgmt = s.mgmt := by
  unfold withdraw onHead
  (repeat' split) <;> first | rfl | (dsimp only; (repeat' split) <;> first | rfl | simp) | simp

@[simp] theorem withdraw_faults (h : Byte) (s : Station) : (withdraw h s).1.faults = s.faults := by
  unfold withdraw onHead
  (repeat' split) <;> first | rfl | (dsimp only; (repeat' split) <;> first | rfl | simp) | simp

@[simp] theorem start_ring (set : Byte) (s : Station) : (start set s).1.ring = s.ring := by
  unfold start
  split
  · simp [Station.eachHead]
  · rfl

@[simp] theorem start_correction (set : Byte) (s : Station) : (start set s).1.correction = s.correction := by
  unfold start
  split
  · simp [Station.eachHead]
  · rfl

@[simp] theorem start_keepOut (set : Byte) (s : Station) : (start set s).1.keepOut = s.keepOut := by
  unfold start
  split
  · simp [Station.eachHead]
  · rfl

@[simp] theorem start_profiles (set : Byte) (s : Station) : (start set s).1.profiles = s.profiles := by
  unfold start
  split
  · simp [Station.eachHead]
  · rfl

@[simp] theorem start_results (set : Byte) (s : Station) : (start set s).1.results = s.results := by
  unfold start
  split
  · simp [Station.eachHead]
  · rfl

@[simp] theorem start_mgmt (set : Byte) (s : Station) : (start set s).1.mgmt = s.mgmt := by
  unfold start
  split
  · simp [Station.eachHead]
  · rfl

@[simp] theorem start_faults (set : Byte) (s : Station) : (start set s).1.faults = s.faults := by
  unfold start
  split
  · simp [Station.eachHead]
  · rfl

@[simp] theorem resume_ring (h : Byte) (s : Station) : (resume h s).1.ring = s.ring := by
  unfold resume onHead
  (repeat' split) <;> first | rfl | (dsimp only; (repeat' split) <;> first | rfl | simp) | simp

@[simp] theorem resume_table (h : Byte) (s : Station) : (resume h s).1.table = s.table := by
  unfold resume onHead
  (repeat' split) <;> first | rfl | (dsimp only; (repeat' split) <;> first | rfl | simp) | simp

@[simp] theorem resume_correction (h : Byte) (s : Station) : (resume h s).1.correction = s.correction := by
  unfold resume onHead
  (repeat' split) <;> first | rfl | (dsimp only; (repeat' split) <;> first | rfl | simp) | simp

@[simp] theorem resume_keepOut (h : Byte) (s : Station) : (resume h s).1.keepOut = s.keepOut := by
  unfold resume onHead
  (repeat' split) <;> first | rfl | (dsimp only; (repeat' split) <;> first | rfl | simp) | simp

@[simp] theorem resume_profiles (h : Byte) (s : Station) : (resume h s).1.profiles = s.profiles := by
  unfold resume onHead
  (repeat' split) <;> first | rfl | (dsimp only; (repeat' split) <;> first | rfl | simp) | simp

@[simp] theorem resume_results (h : Byte) (s : Station) : (resume h s).1.results = s.results := by
  unfold resume onHead
  (repeat' split) <;> first | rfl | (dsimp only; (repeat' split) <;> first | rfl | simp) | simp

@[simp] theorem resume_mgmt (h : Byte) (s : Station) : (resume h s).1.mgmt = s.mgmt := by
  unfold resume onHead
  (repeat' split) <;> first | rfl | (dsimp only; (repeat' split) <;> first | rfl | simp) | simp

@[simp] theorem resume_faults (h : Byte) (s : Station) : (resume h s).1.faults = s.faults := by
  unfold resume onHead
  (repeat' split) <;> first | rfl | (dsimp only; (repeat' split) <;> first | rfl | simp) | simp

@[simp] theorem cancel_ring (h : Byte) (s : Station) : (cancel h s).1.ring = s.ring := by
  unfold cancel onHead
  (repeat' split) <;> first | rfl | (dsimp only; (repeat' split) <;> first | rfl | simp) | simp

@[simp] theorem cancel_table (h : Byte) (s : Station) : (cancel h s).1.table = s.table := by
  unfold cancel onHead
  (repeat' split) <;> first | rfl | (dsimp only; (repeat' split) <;> first | rfl | simp) | simp

@[simp] theorem cancel_correction (h : Byte) (s : Station) : (cancel h s).1.correction = s.correction := by
  unfold cancel onHead
  (repeat' split) <;> first | rfl | (dsimp only; (repeat' split) <;> first | rfl | simp) | simp

@[simp] theorem cancel_keepOut (h : Byte) (s : Station) : (cancel h s).1.keepOut = s.keepOut := by
  unfold cancel onHead
  (repeat' split) <;> first | rfl | (dsimp only; (repeat' split) <;> first | rfl | simp) | simp

@[simp] theorem cancel_profiles (h : Byte) (s : Station) : (cancel h s).1.profiles = s.profiles := by
  unfold cancel onHead
  (repeat' split) <;> first | rfl | (dsimp only; (repeat' split) <;> first | rfl | simp) | simp

@[simp] theorem cancel_results (h : Byte) (s : Station) : (cancel h s).1.results = s.results := by
  unfold cancel onHead
  (repeat' split) <;> first | rfl | (dsimp only; (repeat' split) <;> first | rfl | simp) | simp

@[simp] theorem cancel_mgmt (h : Byte) (s : Station) : (cancel h s).1.mgmt = s.mgmt := by
  unfold cancel onHead
  (repeat' split) <;> first | rfl | (dsimp only; (repeat' split) <;> first | rfl | simp) | simp

@[simp] theorem cancel_faults (h : Byte) (s : Station) : (cancel h s).1.faults = s.faults := by
  unfold cancel onHead
  (repeat' split) <;> first | rfl | (dsimp only; (repeat' split) <;> first | rfl | simp) | simp

@[simp] theorem headRead_keeps (h : Byte) (s : Station) : (headRead h s).1 = s := by
  unfold headRead onHead
  (repeat' split) <;> rfl

@[simp] theorem mapWrite_table (e id role head : Byte) (s : Station) : (mapWrite e id role head s).1.table = s.table := by
  unfold mapWrite mapWriteEntry
  (repeat' split) <;> first | rfl | (dsimp only; (repeat' split) <;> first | rfl | simp) | simp

@[simp] theorem mapWrite_correction (e id role head : Byte) (s : Station) :
    (mapWrite e id role head s).1.correction = s.correction := by
  unfold mapWrite mapWriteEntry
  (repeat' split) <;> first | rfl | (dsimp only; (repeat' split) <;> first | rfl | simp) | simp

@[simp] theorem mapWrite_heads (e id role head : Byte) (s : Station) : (mapWrite e id role head s).1.heads = s.heads := by
  unfold mapWrite mapWriteEntry
  (repeat' split) <;> first | rfl | (dsimp only; (repeat' split) <;> first | rfl | simp) | simp

@[simp] theorem mapWrite_keepOut (e id role head : Byte) (s : Station) : (mapWrite e id role head s).1.keepOut = s.keepOut := by
  unfold mapWrite mapWriteEntry
  (repeat' split) <;> first | rfl | (dsimp only; (repeat' split) <;> first | rfl | simp) | simp

@[simp] theorem mapWrite_profiles (e id role head : Byte) (s : Station) :
    (mapWrite e id role head s).1.profiles = s.profiles := by
  unfold mapWrite mapWriteEntry
  (repeat' split) <;> first | rfl | (dsimp only; (repeat' split) <;> first | rfl | simp) | simp

@[simp] theorem mapWrite_results (e id role head : Byte) (s : Station) : (mapWrite e id role head s).1.results = s.results := by
  unfold mapWrite mapWriteEntry
  (repeat' split) <;> first | rfl | (dsimp only; (repeat' split) <;> first | rfl | simp) | simp

@[simp] theorem mapWrite_mgmt (e id role head : Byte) (s : Station) : (mapWrite e id role head s).1.mgmt = s.mgmt := by
  unfold mapWrite mapWriteEntry
  (repeat' split) <;> first | rfl | (dsimp only; (repeat' split) <;> first | rfl | simp) | simp

@[simp] theorem mapWrite_faults (e id role head : Byte) (s : Station) : (mapWrite e id role head s).1.faults = s.faults := by
  unfold mapWrite mapWriteEntry
  (repeat' split) <;> first | rfl | (dsimp only; (repeat' split) <;> first | rfl | simp) | simp

@[simp] theorem mapClear_table (s : Station) : (mapClear s).1.table = s.table := by
  unfold mapClear
  (repeat' split) <;> first | rfl | (dsimp only; (repeat' split) <;> first | rfl | simp) | simp

@[simp] theorem mapClear_correction (s : Station) : (mapClear s).1.correction = s.correction := by
  unfold mapClear
  (repeat' split) <;> first | rfl | (dsimp only; (repeat' split) <;> first | rfl | simp) | simp

@[simp] theorem mapClear_heads (s : Station) : (mapClear s).1.heads = s.heads := by
  unfold mapClear
  (repeat' split) <;> first | rfl | (dsimp only; (repeat' split) <;> first | rfl | simp) | simp

@[simp] theorem mapClear_keepOut (s : Station) : (mapClear s).1.keepOut = s.keepOut := by
  unfold mapClear
  (repeat' split) <;> first | rfl | (dsimp only; (repeat' split) <;> first | rfl | simp) | simp

@[simp] theorem mapClear_profiles (s : Station) : (mapClear s).1.profiles = s.profiles := by
  unfold mapClear
  (repeat' split) <;> first | rfl | (dsimp only; (repeat' split) <;> first | rfl | simp) | simp

@[simp] theorem mapClear_results (s : Station) : (mapClear s).1.results = s.results := by
  unfold mapClear
  (repeat' split) <;> first | rfl | (dsimp only; (repeat' split) <;> first | rfl | simp) | simp

@[simp] theorem mapClear_mgmt (s : Station) : (mapClear s).1.mgmt = s.mgmt := by
  unfold mapClear
  (repeat' split) <;> first | rfl | (dsimp only; (repeat' split) <;> first | rfl | simp) | simp

@[simp] theorem mapClear_faults (s : Station) : (mapClear s).1.faults = s.faults := by
  unfold mapClear
  (repeat' split) <;> first | rfl | (dsimp only; (repeat' split) <;> first | rfl | simp) | simp

@[simp] theorem groupConfig_ring (g : Byte) (d : Word) (s : Station) : (groupConfig g d s).1.ring = s.ring := by
  unfold groupConfig onHead
  (repeat' split) <;> first | rfl | (dsimp only; (repeat' split) <;> first | rfl | simp) | simp

@[simp] theorem groupConfig_table (g : Byte) (d : Word) (s : Station) : (groupConfig g d s).1.table = s.table := by
  unfold groupConfig onHead
  (repeat' split) <;> first | rfl | (dsimp only; (repeat' split) <;> first | rfl | simp) | simp

@[simp] theorem groupConfig_correction (g : Byte) (d : Word) (s : Station) :
    (groupConfig g d s).1.correction = s.correction := by
  unfold groupConfig onHead
  (repeat' split) <;> first | rfl | (dsimp only; (repeat' split) <;> first | rfl | simp) | simp

@[simp] theorem groupConfig_heads (g : Byte) (d : Word) (s : Station) : (groupConfig g d s).1.heads = s.heads := by
  unfold groupConfig onHead
  (repeat' split) <;> first | rfl | (dsimp only; (repeat' split) <;> first | rfl | simp) | simp

@[simp] theorem groupConfig_profiles (g : Byte) (d : Word) (s : Station) : (groupConfig g d s).1.profiles = s.profiles := by
  unfold groupConfig onHead
  (repeat' split) <;> first | rfl | (dsimp only; (repeat' split) <;> first | rfl | simp) | simp

@[simp] theorem groupConfig_results (g : Byte) (d : Word) (s : Station) : (groupConfig g d s).1.results = s.results := by
  unfold groupConfig onHead
  (repeat' split) <;> first | rfl | (dsimp only; (repeat' split) <;> first | rfl | simp) | simp

@[simp] theorem groupConfig_mgmt (g : Byte) (d : Word) (s : Station) : (groupConfig g d s).1.mgmt = s.mgmt := by
  unfold groupConfig onHead
  (repeat' split) <;> first | rfl | (dsimp only; (repeat' split) <;> first | rfl | simp) | simp

@[simp] theorem groupConfig_faults (g : Byte) (d : Word) (s : Station) : (groupConfig g d s).1.faults = s.faults := by
  unfold groupConfig onHead
  (repeat' split) <;> first | rfl | (dsimp only; (repeat' split) <;> first | rfl | simp) | simp

@[simp] theorem stationConfig_table (limit : Byte) (upper lower : Half) (s : Station) :
    (stationConfig limit upper lower s).1.table = s.table := by
  unfold stationConfig
  simp

@[simp] theorem stationConfig_correction (limit : Byte) (upper lower : Half) (s : Station) :
    (stationConfig limit upper lower s).1.correction = s.correction := by
  unfold stationConfig
  simp

@[simp] theorem stationConfig_heads (limit : Byte) (upper lower : Half) (s : Station) :
    (stationConfig limit upper lower s).1.heads = s.heads := by
  unfold stationConfig
  simp

@[simp] theorem stationConfig_keepOut (limit : Byte) (upper lower : Half) (s : Station) :
    (stationConfig limit upper lower s).1.keepOut = s.keepOut := by
  unfold stationConfig
  simp

@[simp] theorem stationConfig_profiles (limit : Byte) (upper lower : Half) (s : Station) :
    (stationConfig limit upper lower s).1.profiles = s.profiles := by
  unfold stationConfig
  simp

@[simp] theorem stationConfig_mgmt (limit : Byte) (upper lower : Half) (s : Station) :
    (stationConfig limit upper lower s).1.mgmt = s.mgmt := by
  unfold stationConfig
  simp

@[simp] theorem resultRead_keeps (k : Byte) (s : Station) : (resultRead k s).1 = s := by
  unfold resultRead
  (repeat' split) <;> rfl

@[simp] theorem resultFlush_ring (s : Station) : (resultFlush s).1.ring = s.ring := by
  unfold resultFlush
  simp

@[simp] theorem resultFlush_table (s : Station) : (resultFlush s).1.table = s.table := by
  unfold resultFlush
  simp

@[simp] theorem resultFlush_correction (s : Station) : (resultFlush s).1.correction = s.correction := by
  unfold resultFlush
  simp

@[simp] theorem resultFlush_heads (s : Station) : (resultFlush s).1.heads = s.heads := by
  unfold resultFlush
  simp

@[simp] theorem resultFlush_keepOut (s : Station) : (resultFlush s).1.keepOut = s.keepOut := by
  unfold resultFlush
  simp

@[simp] theorem resultFlush_profiles (s : Station) : (resultFlush s).1.profiles = s.profiles := by
  unfold resultFlush
  simp

@[simp] theorem resultFlush_mgmt (s : Station) : (resultFlush s).1.mgmt = s.mgmt := by
  unfold resultFlush
  simp

@[simp] theorem faultRead_keeps (s : Station) : (faultRead s).1 = s := by
  unfold faultRead
  (repeat' split) <;> rfl

@[simp] theorem faultClear_ring (set : Half) (s : Station) : (faultClear set s).1.ring = s.ring := by
  unfold faultClear
  (repeat' split) <;> rfl

@[simp] theorem faultClear_table (set : Half) (s : Station) : (faultClear set s).1.table = s.table := by
  unfold faultClear
  (repeat' split) <;> rfl

@[simp] theorem faultClear_correction (set : Half) (s : Station) : (faultClear set s).1.correction = s.correction := by
  unfold faultClear
  (repeat' split) <;> rfl

@[simp] theorem faultClear_heads (set : Half) (s : Station) : (faultClear set s).1.heads = s.heads := by
  unfold faultClear
  (repeat' split) <;> rfl

@[simp] theorem faultClear_keepOut (set : Half) (s : Station) : (faultClear set s).1.keepOut = s.keepOut := by
  unfold faultClear
  (repeat' split) <;> rfl

@[simp] theorem faultClear_profiles (set : Half) (s : Station) : (faultClear set s).1.profiles = s.profiles := by
  unfold faultClear
  (repeat' split) <;> rfl

@[simp] theorem faultClear_results (set : Half) (s : Station) : (faultClear set s).1.results = s.results := by
  unfold faultClear
  (repeat' split) <;> rfl

@[simp] theorem faultClear_mgmt (set : Half) (s : Station) : (faultClear set s).1.mgmt = s.mgmt := by
  unfold faultClear
  (repeat' split) <;> rfl

@[simp] theorem faultEnable_ring (set : Half) (s : Station) : (faultEnable set s).1.ring = s.ring := by
  unfold faultEnable
  (repeat' split) <;> rfl

@[simp] theorem faultEnable_table (set : Half) (s : Station) : (faultEnable set s).1.table = s.table := by
  unfold faultEnable
  (repeat' split) <;> rfl

@[simp] theorem faultEnable_correction (set : Half) (s : Station) : (faultEnable set s).1.correction = s.correction := by
  unfold faultEnable
  (repeat' split) <;> rfl

@[simp] theorem faultEnable_heads (set : Half) (s : Station) : (faultEnable set s).1.heads = s.heads := by
  unfold faultEnable
  (repeat' split) <;> rfl

@[simp] theorem faultEnable_keepOut (set : Half) (s : Station) : (faultEnable set s).1.keepOut = s.keepOut := by
  unfold faultEnable
  (repeat' split) <;> rfl

@[simp] theorem faultEnable_profiles (set : Half) (s : Station) : (faultEnable set s).1.profiles = s.profiles := by
  unfold faultEnable
  (repeat' split) <;> rfl

@[simp] theorem faultEnable_results (set : Half) (s : Station) : (faultEnable set s).1.results = s.results := by
  unfold faultEnable
  (repeat' split) <;> rfl

@[simp] theorem faultEnable_mgmt (set : Half) (s : Station) : (faultEnable set s).1.mgmt = s.mgmt := by
  unfold faultEnable
  (repeat' split) <;> rfl

@[simp] theorem attentionRearm_ring (s : Station) : (attentionRearm s).1.ring = s.ring := by
  unfold attentionRearm
  (repeat' split) <;> rfl

@[simp] theorem attentionRearm_table (s : Station) : (attentionRearm s).1.table = s.table := by
  unfold attentionRearm
  (repeat' split) <;> rfl

@[simp] theorem attentionRearm_correction (s : Station) : (attentionRearm s).1.correction = s.correction := by
  unfold attentionRearm
  (repeat' split) <;> rfl

@[simp] theorem attentionRearm_heads (s : Station) : (attentionRearm s).1.heads = s.heads := by
  unfold attentionRearm
  (repeat' split) <;> rfl

@[simp] theorem attentionRearm_keepOut (s : Station) : (attentionRearm s).1.keepOut = s.keepOut := by
  unfold attentionRearm
  (repeat' split) <;> rfl

@[simp] theorem attentionRearm_profiles (s : Station) : (attentionRearm s).1.profiles = s.profiles := by
  unfold attentionRearm
  (repeat' split) <;> rfl

@[simp] theorem attentionRearm_results (s : Station) : (attentionRearm s).1.results = s.results := by
  unfold attentionRearm
  (repeat' split) <;> rfl

@[simp] theorem attentionRearm_mgmt (s : Station) : (attentionRearm s).1.mgmt = s.mgmt := by
  unfold attentionRearm
  (repeat' split) <;> rfl

@[simp] theorem counterRead_keeps (s : Station) : (counterRead s).1 = s := by
  unfold counterRead
  (repeat' split) <;> rfl

/-! ## What the requests do to the heads -/

theorem Station.head_emptyQueues (s : Station) (j : HeadNo) : s.emptyQueues.head j = { s.head j with queue := [] } := by
  simp [Station.emptyQueues, Station.head]

theorem jigLoad_head (id : Word) (s : Station) (j : HeadNo) :
    (jigLoad id s).1.head j = s.head j ∨ (jigLoad id s).1.head j = { s.head j with queue := [] } := by
  unfold jigLoad
  split
  · exact Or.inl rfl
  · exact Or.inr (s.head_emptyQueues j)

/-- R65: an IDLE head with entries, when the jig becomes WORKING and the halt is absent. -/
theorem Station.head_seekIfWork (s : Station) (h j : HeadNo) :
    (s.seekIfWork h).head j = s.head j ∨
      (h = j ∧ (s.head j).state = .idle ∧ s.ring.halt = false ∧ s.table.jig = .working ∧
        (s.seekIfWork h).head j = { s.head j with state := .seeking }) := by
  unfold Station.seekIfWork
  dsimp only
  split
  · next hc =>
    by_cases hj : h = j
    · subst hj; exact Or.inr ⟨rfl, hc.1, hc.2.2.2, hc.2.2.1, by simp⟩
    · exact Or.inl (by simp [Station.head_setHead, hj])
  · exact Or.inl rfl

/-- One event that reaches every head, each part changing one head alone or nothing. -/
theorem Station.eachHead_cases (Q : Station → Prop) (f : HeadNo → Station → Station) (hq : ∀ h s, Q s → Q (f h s))
    (R : HeadNo → Head → Head → Prop)
    (hr : ∀ h s j, Q s → (f h s).head j = s.head j ∨ (h = j ∧ R h (s.head j) ((f h s).head j)))
    (s : Station) (hs : Q s) (j : HeadNo) : (s.eachHead f).head j = s.head j ∨ R j (s.head j) ((s.eachHead f).head j) := by
  have q1 := hq 0 s hs
  have q2 := hq 1 _ q1
  have q3 := hq 2 _ q2
  have other : ∀ h t, Q t → h ≠ j → (f h t).head j = t.head j := fun h t ht hj =>
    (hr h t j ht).resolve_right fun hh => hj hh.1
  have own : ∀ t, Q t → (f j t).head j = t.head j ∨ R j (t.head j) ((f j t).head j) := fun t ht => (hr j t j ht).imp id And.right
  unfold Station.eachHead
  match j with
  | 0 =>
    rw [other 3 _ q3 (by decide), other 2 _ q2 (by decide), other 1 _ q1 (by decide)]
    exact own s hs
  | 1 =>
    rw [other 3 _ q3 (by decide), other 2 _ q2 (by decide)]
    have := own _ q1
    rwa [other 0 _ hs (by decide)] at this
  | 2 =>
    rw [other 3 _ q3 (by decide)]
    have := own _ q2
    rwa [other 1 _ q1 (by decide), other 0 _ hs (by decide)] at this
  | 3 =>
    have := own _ q3
    rwa [other 2 _ q2 (by decide), other 1 _ q1 (by decide), other 0 _ hs (by decide)] at this

theorem jigStart_head (s : Station) (j : HeadNo) :
    (jigStart s).1.head j = s.head j ∨
      ((s.head j).state = .idle ∧ s.ring.halt = false ∧ (jigStart s).1.head j = { s.head j with state := .seeking }) := by
  unfold jigStart
  split
  · exact Or.inl rfl
  · dsimp only
    have := Station.eachHead_cases (fun t => t.ring = s.ring) Station.seekIfWork (fun h t ht => by simpa using ht)
      (fun _ a b => a.state = .idle ∧ s.ring.halt = false ∧ b = { a with state := .seeking })
      (fun h t j ht => (t.head_seekIfWork h j).imp id fun hh => ⟨hh.1, hh.2.1, ht ▸ hh.2.2.1, hh.2.2.2.2⟩)
      (({ s with table := { s.table with jig := .working, halfA := none } } : Station).completenessTest) (by simp) j
    rwa [Station.head_completenessTest] at this

/-- R65: the same test of every head. -/
theorem Station.head_eachIdleIfEmpty (s : Station) (j : HeadNo) :
    (s.eachHead Station.idleIfEmpty).head j = (s.head j).idled (s.rest .idle) := by
  have rest : ∀ (t : Station) (h : HeadNo), (t.idleIfEmpty h).rest .idle = t.rest .idle := fun t h => by
    simp only [Station.rest, Station.idleIfEmpty_ring]
  unfold Station.eachHead
  match j with
  | 0 | 1 | 2 | 3 => simp only [Station.head_idleIfEmpty, rest]; rfl

theorem jigRelease_head (s : Station) (j : HeadNo) :
    (jigRelease s).1.head j = s.head j ∨
      (jigRelease s).1.head j = ({ s.head j with queue := [] } : Head).idled (s.rest .idle) := by
  unfold jigRelease
  split
  · exact Or.inl rfl
  · refine Or.inr ?_
    have h := Station.head_eachIdleIfEmpty
      ({ s.emptyQueues with table := { s.table with jig := .released } } : Station) j
    have hq : ({ s.emptyQueues with table := { s.table with jig := .released } } : Station).head j
        = { s.head j with queue := [] } := s.head_emptyQueues j
    rw [hq] at h
    exact h

theorem holeWriteB_head (index : Half) (drill set : Byte) (depth stroke : Word) (s : Station) (j : HeadNo) :
    (holeWriteB index drill set depth stroke s).1.head j = s.head j ∨
      (holeWriteB index drill set depth stroke s).1.head j =
        { s.head j with queue := (s.head j).queue.erase index.toNat } := by
  have commit : ∀ v : Hole, (s.commitHole index.toNat v).head j = s.head j ∨
      (s.commitHole index.toNat v).head j = { s.head j with queue := (s.head j).queue.erase index.toNat } := fun v => by
    unfold Station.commitHole
    dsimp only [Station.head]
    split
    · exact Or.inr (by simp)
    · exact Or.inl rfl
  unfold holeWriteB
  repeat' split
  all_goals first | exact Or.inl rfl | exact commit _

theorem headConfig_head (h kind face group : Byte) (ox ot w band : Word) (count : Byte) (shift : Word) (mode : Byte)
    (home : Word) (s : Station) (j : HeadNo) :
    (headConfig h kind face group ox ot w band count shift mode home s).1.head j = s.head j ∨
      ((s.head j).state = .offline ∧
        ∃ c, (headConfig h kind face group ox ot w band count shift mode home s).1.head j = { s.head j with cfg := c }) := by
  unfold headConfig
  rcases onHead_cases h _ s with hs | ⟨i, hi, hs⟩ <;> rw [hs]
  · exact Or.inl rfl
  · dsimp only
    split
    · exact Or.inl rfl
    · next hst =>
      split
      · by_cases hj : i = j
        · subst hj; exact Or.inr ⟨by simpa using hst, _, by simp; rfl⟩
        · exact Or.inl (by simp [Station.head_modHead, hj])
      · exact Or.inl rfl

theorem headEnable_head (h : Byte) (s : Station) (j : HeadNo) :
    (headEnable h s).1.head j = s.head j ∨
      ((s.head j).state = .offline ∧ (headEnable h s).1.head j = { s.head j with state := s.rest .idle }) := by
  unfold headEnable
  rcases onHead_cases h _ s with hs | ⟨i, hi, hs⟩ <;> rw [hs]
  · exact Or.inl rfl
  · dsimp only
    split
    · exact Or.inl rfl
    · next hst =>
      split
      · exact Or.inl rfl
      · by_cases hj : i = j
        · subst hj; exact Or.inr ⟨by simpa using hst, by simp⟩
        · exact Or.inl (by simp [Station.head_modHead, hj])

theorem headDisable_head (h : Byte) (s : Station) (j : HeadNo) :
    (headDisable h s).1.head j = s.head j ∨
      ((s.head j).state.inCycle = false ∧
        (headDisable h s).1.head j = ({ s.head j with claim := none } : Head).retire Gate.letGo) := by
  unfold headDisable
  rcases onHead_cases h _ s with hs | ⟨i, hi, hs⟩ <;> rw [hs]
  · exact Or.inl rfl
  · dsimp only
    split
    · exact Or.inl rfl
    · next hst =>
      split
      · exact Or.inl rfl
      · by_cases hj : i = j
        · subst hj; exact Or.inr ⟨by simpa using hst, by simp [Station.head_releaseClaim]⟩
        · exact Or.inl (by simp [Station.head_modHead, Station.head_releaseClaim, hj])

theorem headClear_head (h : Byte) (s : Station) (j : HeadNo) :
    (headClear h s).1.head j = s.head j ∨
      (((s.head j).state = .fault ∨ (s.head j).state = .halted) ∧
        (headClear h s).1.head j = (s.head j).retire Gate.clear) := by
  unfold headClear
  rcases onHead_cases h _ s with hs | ⟨i, hi, hs⟩ <;> rw [hs]
  · exact Or.inl rfl
  · split
    · exact Or.inl rfl
    · next hst =>
      by_cases hj : i = j
      · subst hj
        refine Or.inr ⟨?_, by simp⟩
        by_cases hf : (s.head i).state = .fault
        · exact Or.inl hf
        · exact Or.inr (by simpa [hf] using hst)
      · exact Or.inl (by simp [Station.head_modHead, hj])

/-- R67: ASSIGN puts a hole that is not in a queue of at most seven at its tail; the head may go from IDLE to SEEKING. -/
theorem assign_head (h : Byte) (i : Half) (s : Station) (j : HeadNo) :
    (assign h i s).1.head j = s.head j ∨
      ((s.head j).queue.length < 8 ∧ i.toNat ∉ (s.head j).queue ∧
        ((assign h i s).1.head j = { s.head j with queue := (s.head j).queue ++ [i.toNat] } ∨
          ((s.head j).state = .idle ∧ s.ring.halt = false ∧
            (assign h i s).1.head j = { s.head j with queue := (s.head j).queue ++ [i.toNat], state := .seeking }))) := by
  unfold assign
  rcases onHead_cases h (assignTo i.toNat) s with hs | ⟨k, hk, hs⟩ <;> rw [hs]
  · exact Or.inl rfl
  · unfold assignTo
    split
    · exact Or.inl rfl
    · split
      · exact Or.inl rfl
      · split
        · exact Or.inl rfl
        · next v hv =>
          split
          · exact Or.inl rfl
          · next hd =>
            dsimp only
            unfold assignDenial at hd
            split at hd
            · cases hd
            · next hl =>
              split at hd
              · cases hd
              · next hm =>
                by_cases hj : k = j
                · subst hj
                  refine Or.inr ⟨by omega, hm, ?_⟩
                  have := (s.modHead k fun w => { w with queue := w.queue ++ [i.toNat] }).head_seekIfWork k k
                  simp only [Station.head_modHead_same, Station.modHead_ring] at this
                  rcases this with h1 | ⟨_, h1, h2, _, h3⟩
                  · exact Or.inl h1
                  · exact Or.inr ⟨h1, h2, h3⟩
                · refine Or.inl ?_
                  rcases (s.modHead k fun w => { w with queue := w.queue ++ [i.toNat] }).head_seekIfWork k j with h1 | h1
                  · rw [h1]; simp [Station.head_modHead, hj]
                  · exact absurd h1.1 hj

theorem withdraw_head (h : Byte) (s : Station) (j : HeadNo) :
    (withdraw h s).1.head j = s.head j ∨
      (withdraw h s).1.head j = ({ s.head j with queue := (s.head j).kept } : Head).idled (s.rest .idle) := by
  unfold withdraw
  rcases onHead_cases h _ s with hs | ⟨i, hi, hs⟩ <;> rw [hs]
  · exact Or.inl rfl
  · dsimp only
    rw [Station.head_idleIfEmpty]
    split
    · next hj =>
      subst hj
      refine Or.inr ?_
      simp only [Station.head_modHead_same, Station.rest, Station.modHead_ring]
      rfl
    · next hj => exact Or.inl (by simp [Station.head_modHead, hj])

theorem start_head (set : Byte) (s : Station) (j : HeadNo) :
    (start set s).1.head j = s.head j ∨
      ((s.head j).state = .armed ∧ ∃ c b, (start set s).1.head j =
        { s.head j with state := .engaged, gate := (s.head j).gate.engage, engine := some c, bank := b }) := by
  unfold start
  split
  · dsimp only
    have := Station.eachHead_cases (fun _ => True) (fun h t => if s.startable set h then t.engage h else t) (fun _ _ _ => trivial)
      (fun i a b => s.startable set i = true ∧
        ∃ c k, b = { a with state := .engaged, gate := a.gate.engage, engine := some c, bank := k })
      (fun h t i _ => by
        split
        · next hst =>
          rcases t.head_engage h i with h1 | ⟨hi, c, b, h1⟩
          · exact Or.inl h1
          · subst hi; exact Or.inr ⟨rfl, hst, c, b, h1⟩
        · exact Or.inl rfl) s trivial j
    rcases this with h1 | ⟨h1, h2⟩
    · exact Or.inl h1
    · refine Or.inr ⟨?_, h2⟩
      unfold Station.startable at h1
      simp only [Bool.and_eq_true, beq_iff_eq] at h1
      exact h1.2
  · exact Or.inl rfl

theorem resume_head (h : Byte) (s : Station) (j : HeadNo) :
    (resume h s).1.head j = s.head j ∨
      (s.ring.halt = false ∧
        (((s.head j).state = .halted ∧
            ((resume h s).1.head j = { s.head j with state := .seeking } ∨ (resume h s).1.head j = { s.head j with state := .idle })) ∨
          ((s.head j).state = .frozen ∧
            (resume h s).1.head j = { s.head j with state := .engaged, engine := (s.head j).engine.map Cycle.thaw }))) := by
  unfold resume
  rcases onHead_cases h _ s with hs | ⟨i, hi, hs⟩ <;> rw [hs]
  · exact Or.inl rfl
  · dsimp only
    split
    · exact Or.inl rfl
    · next hh =>
      have hh : s.ring.halt = false := by simpa using hh
      by_cases hj : i = j
      · subst hj
        split
        · next hst =>
          refine Or.inr ⟨hh, Or.inl ⟨hst, ?_⟩⟩
          simp only [Station.head_modHead_same]
          split
          · exact Or.inl rfl
          · exact Or.inr rfl
        · next hst => exact Or.inr ⟨hh, Or.inr ⟨hst, by simp⟩⟩
        all_goals exact Or.inl rfl
      · split
        all_goals first | exact Or.inl rfl | exact Or.inl (by simp [Station.head_modHead, hj])

theorem cancel_head (h : Byte) (s : Station) (j : HeadNo) :
    (cancel h s).1.head j = s.head j ∨
      ((s.head j).state = .frozen ∧
        (cancel h s).1.head j = { s.head j with state := .retracting, engine := (s.head j).engine.map Cycle.cancel }) := by
  unfold cancel
  rcases onHead_cases h _ s with hs | ⟨i, hi, hs⟩ <;> rw [hs]
  · exact Or.inl rfl
  · dsimp only
    split
    · exact Or.inl rfl
    · next hst =>
      by_cases hj : i = j
      · subst hj; exact Or.inr ⟨by simpa using hst, by simp⟩
      · exact Or.inl (by simp [Station.head_modHead, hj])

/-! ## Resets -/

/-- R169: after a reset every head is as its chapter says. -/
theorem Station.head_afterReset (r : Ring) (a : Option Reply) (j : HeadNo) : (Station.afterReset r a).head j = Head.initial j := by
  unfold Station.afterReset
  dsimp only
  split <;> (match j with | 0 | 1 | 2 | 3 => rfl)

@[simp] theorem Station.afterReset_ring (r : Ring) (a : Option Reply) : (Station.afterReset r a).ring = r := by
  unfold Station.afterReset
  dsimp only
  split <;> rfl

@[simp] theorem stationReset_station (s : Station) : (Machine.stationReset s).1 = s.stationReset := rfl

end Sys2Proof.Machine
end

