-- ==== Sys2Proof/Tests/Slice0.lean ====
section
/-!
SUPPORT. Tests of the model: the smoke test of the WellFormed checks, small tests of single commands against the worked
examples of the spec, and for every statement with hypotheses a state and operands that meet them, clause by clause.
-/
namespace Sys2Proof.Tests
open Sys2Proof Sys2Proof.Machine

/-! ## Helpers -/

/-- The next state of an outcome. -/
def after : Host.Outcome State Fault Refusal → Option State
  | .next t => some t
  | .fault _ => none
  | .refused _ => none

/-- The state that a command leaves; the tests below only run commands that answer next. -/
def run (i : Instr) (s : State) : State := (after (exec i s)).getD s

/-- A signed value as an operand. -/
def w32 (v : Int) : Word := BitVec.ofInt 32 v

/-- A hole planned for both operations. -/
def hole0 : Hole :=
  { x := 1000000, t := 500000, face := .left, drill := some 0, set := some 1, depth := 10000, stroke := 30000,
    state := .pending, claimant := none, attempts := 0, entry := none, measured := none, last := none }

def drillProfile : Profile :=
  { state := .valid, body := .drill .initial [(1, { thickness := 5000, feed := 40 })], comparators := [], clamped := false }

def setProfile : Profile := { state := .valid, body := .set .initial, comparators := [], clamped := false }

/-- A jig in the works with one hole and two profiles. -/
def bench (hole : Hole) : State :=
  { State.reset with
    table := { jig := .working, jigId := 7, complete := false, holes := [(0, hole)], halfA := none }
    profiles := [(0, drillProfile), (1, setProfile)] }

/-- The bench while its jig is LOADING. -/
def loadingBench (hole : Hole) : State := { bench hole with table := { (bench hole).table with jig := .loading } }

/-- The bench whose drill profile is LOADING. -/
def openBench : State := { bench hole0 with profiles := [(0, { drillProfile with state := .loading }), (1, { setProfile with state := .loading })] }

/-- A head in a state, with a queue. -/
def headIn (st : HeadState) (queue : List Nat) : Head := { Head.atReset 0 with state := st, queue }

/-- A head that holds a claim on hole 0. -/
def claiming (st : HeadState) : Head := { headIn st [0] with claim := some { hole := 0, claimX := 1000000 } }

def drillWork (st : DrillStage) : DrillWork :=
  { prof := .initial, layers := [{ thickness := 5000, feed := 40 }], surface := 10000, stage := st, spindleReady := false,
    contactCount := 0, breakthroughCount := 0, torqueCount := 0, contact := none, layerEnd := none, breakthrough := none,
    peckDepth := none, pecks := 0, peckLayer := none, peakTorque := 0, overTorque := 0 }

def setWork (st : SetStage) : SetWork :=
  { prof := .initial, expected := 30000, gripComp := 0, stage := st, spindleReady := false, contactCount := 0, forceCount := 0,
    dwellCount := 0, contact := none, setStroke := none, deepest := 0, overTorque := 0, spindleActual := none }

/-- A cycle whose frame carried a setpoint. -/
def cycleAt (sent : Int) (w : Work) : Cycle := { Cycle.begin 0 w with p := sent, sent := some sent, begun := true }

/-- A head with a cycle in flight. -/
def working (st : HeadState) (c : Cycle) : Head := { claiming st with engine := some c }

/-- The bench with head 0 as given, its hole claimed by it. -/
def benchWith (w : Head) : State :=
  (bench { hole0 with claimant := if w.claim.isSome then some 0 else none }).withHead 0 w

/-- A part under the halt. -/
def halted (s : State) : State := { s with ring := { s.ring with stopPin := true } }

/-- A CYCLE frame with its check. -/
def frameOf (seq : Nat) (flags : Byte) (sections : List Sect) : Frame :=
  { header := [1, flags] ++ u16 seq ++ u16 (11 + (sections.flatMap Sect.bytes).length) ++ u8 sections.length, sections }

/-- The smallest CYCLE frame: one section, with no payload, that nobody owns. -/
def smallest : Frame := frameOf 7 0 [{ id := 40, payload := [] }]

/-- A sound frame that is no CYCLE frame. -/
def otherFrame : List Byte := withCheck [2, 0, 0, 0, 13, 0, 0, 0, 0]

def feedback (force : Nat) : Feedback :=
  { actual := 0, force, torque := 0, spindle := 0, status := .ready, atHome := false, rivetPresent := false }

/-- A cycle return in progress. -/
def runOf (sent : Int) (w : Work) : Run := .begin (cycleAt sent w) .engaged .initial

/-- A live comparator that notes every return of the RETRACT stage with a force below 1. -/
def noteHome : LiveComparator :=
  { slot := 0, count := 0, fired := false
    record := { source := .force, condition := .below, low := 1, high := 0, mask := 0xFFFF, count := 1, action := .note } }

def record0 : Result :=
  { jigId := 7, hole := 0, head := 0, operation := .drill, outcome := .good, reason := .none, attempt := 1, sequence := 9,
    notes := 0, latch := none, group := .none }

/-! ## WellFormed: an ill-formed term for each check, refused -/

theorem test_edges_in_order_are_well_formed :
    (Instr.outboundPass [] [{ before := 0, asserted := true }, { before := 48, asserted := false }]).wellFormed = true := by
  decide

theorem test_edges_out_of_order_are_ill_formed :
    (Instr.outboundPass [] [{ before := 2, asserted := true }, { before := 1, asserted := false }]).wellFormed = false
      ∧ (Instr.returnPass [] [{ before := 2, asserted := true }, { before := 1, asserted := false }]).wellFormed = false := by
  decide

theorem test_edge_beyond_the_last_section_is_ill_formed :
    (Instr.outboundPass [] [{ before := 49, asserted := true }]).wellFormed = false
      ∧ (Instr.returnPass [] [{ before := 49, asserted := true }]).wellFormed = false := by
  decide

theorem test_profile_fields_of_another_length_are_ill_formed :
    (Instr.profileFields 0 0 (List.replicate 73 0)).wellFormed = false
      ∧ (Instr.profileFields 0 0 (List.replicate 75 0)).wellFormed = false
      ∧ (Instr.profileFields 0 0 (List.replicate 74 0)).wellFormed = true := by
  decide

/-! ## The spec's worked examples, one step each -/

/-- The check of the ASCII string 123456789 is that of CRC-32 with the polynomial of R3. -/
theorem test_crc32_of_123456789 :
    crc32 [0x31, 0x32, 0x33, 0x34, 0x35, 0x36, 0x37, 0x38, 0x39] = 0xCBF43926 := by decide +kernel

/-- The examples after R109. -/
theorem test_slow_distance :
    slowDistance 40 800 120 = 7480 ∧ slowDistance 40 120 80 = 80 ∧ slowDistance 40 80 40 = 40
      ∧ slowDistance 20 200 40 = 880 := by decide

/-- Section 3.6 and section 3.7. -/
theorem test_correction_examples :
    correctionAt [⟨1000000, 800, -50⟩, ⟨11000000, 3000, 150⟩, ⟨21000000, 5100, 90⟩] 4750000 = { dx := 1625, dt := 25 }
      ∧ correctionAt [⟨1000000, 800, -50⟩, ⟨11000000, 3000, 150⟩, ⟨21000000, 5100, 90⟩] 14333333 = { dx := 3700, dt := 130 }
      ∧ correctionAt [⟨1000000, 800, -50⟩, ⟨11000000, 3000, 150⟩, ⟨21000000, 5100, 90⟩] 23000000 = { dx := 5100, dt := 90 }
      ∧ correctionAt [⟨2000000, -1000, 300⟩, ⟨6000000, 1202, -1902⟩] 3000000 = { dx := -449, dt := -251 } := by decide

/-- Section 7.4, steps 1 and 4: the ramp test falls at once, and step 4 is cut at the boundary. -/
theorem test_thin_layer_steps :
    rampStep 20 { outward := false, target := 200, bound := 30550, endSpeed := 40, margin := 0 } .run 30000 200
        = { p := 30180, s := 180, phase := .rampDown, atBound := false }
      ∧ rampStep 20 { outward := false, target := 200, bound := 30550, endSpeed := 40, margin := 0 } .rampDown 30480 140
        = { p := 30550, s := 120, phase := .rampDown, atBound := true } := by decide

/-- Section 11.6: a rearm against a fresh fault leaves the latch set and the flag clear. -/
theorem test_rearm_against_a_fresh_fault :
    (run .attentionRearm { State.reset with faults := { raw := 0x200, enable := 0x7FFF, attention := true, armed := false } }).faults
      = { raw := 0x200, enable := 0x7FFF, attention := true, armed := false } := by decide

/-! ## Small tests of single commands -/

theorem test_a_frame_passes_through :
    (run (.outboundPass smallest.bytes []) State.reset).ring.spurOut = [smallest.bytes]
      ∧ (run (.outboundPass smallest.bytes []) State.reset).ring.inFlight = some 7 := by decide +kernel

theorem test_header_halt_is_taken :
    (run (.outboundPass (frameOf 7 1 [{ id := 40, payload := [] }]).bytes []) State.reset).ring.headerHalt = true := by
  decide +kernel

/-- R16: a head in service whose two sections the frame lacks. -/
theorem test_missing_sections_fault_a_head :
    ((run (.outboundPass smallest.bytes []) (benchWith (headIn .idle []))).head 0).state = .fault
      ∧ ((run (.outboundPass smallest.bytes []) (benchWith (headIn .idle []))).head 0).faultCause = some .sectionMissing := by
  decide +kernel

theorem test_a_stop_edge_inside_a_pass_halts :
    ((run (.returnPass smallest.bytes [{ before := 0, asserted := true }])
        { benchWith (headIn .idle []) with ring := { State.reset.ring with inFlight := some 7 } }).head 0).state = .halted := by
  decide +kernel

theorem test_map_write_bounds :
    (run (.mapWrite 31 191 2 3) State.reset).ring.map = [(31, { id := 191, role := .tool 3 })]
      ∧ (run (.mapWrite 32 191 2 3) State.reset).mgmt.answer = some (.refused .badIndex)
      ∧ (run (.mapWrite 31 192 2 3) State.reset).mgmt.answer = some (.refused .badValue) := by decide

theorem test_assign_to_an_idle_head_seeks :
    ((run (.assign 0 0) (benchWith (headIn .idle []))).head 0).state = .seeking
      ∧ ((run (.assign 0 0) (benchWith (headIn .idle []))).head 0).queue = [0] := by decide

theorem test_halt_interrupts_a_cycle :
    ((run (.stopPinChange true) (benchWith (working .engaged (cycleAt 8000 (.drill (drillWork .seek)))))).head 0).state
        = .retracting
      ∧ (((run (.stopPinChange true) (benchWith (working .engaged (cycleAt 8000 (.drill (drillWork .seek)))))).head 0).engine.bind
          fun c => c.decision) = some (.interrupted, .halt) := by decide

/-- R116, log 14: the ready mark is set on a return of a FROZEN head. -/
theorem test_spindle_mark_while_frozen :
    ({ runOf 8000 (.drill (drillWork .seek)) with state := .frozen } : Run).spindle { feedback 0 with spindle := 1500 }
      = { runOf 8000 (.drill { drillWork .seek with spindleReady := true }) with state := .frozen } := by decide

/-- R131: a cycle return of a setting cycle records the spindle actual, and the next one replaces it. -/
theorem test_set_return_records_the_spindle_actual :
    ((runOf 0 (.set (setWork .feedWait))).recordSet { feedback 7 with spindle := 65535 }).cyc.work
        = .set { setWork .feedWait with spindleActual := some 65535 }
      ∧ (((runOf 0 (.set (setWork .feedWait))).recordSet { feedback 7 with spindle := 65535 }).recordSet (feedback 0)).cyc
        = { cycleAt 0 (.set { setWork .feedWait with spindleActual := some 0 }) with peakForce := 7 } := by decide

/-- R144, log 12: a NOTE comparator acts on the return that finds the tool home. -/
theorem test_comparator_acts_on_the_home_return :
    (cycleReturn { feedback 0 with atHome := true } 0 0 200 .retracting { Bank.initial with live := [noteHome] }
        { cycleAt 0 (.drill (drillWork .retract)) with phase := .homeWait }).verdict = .home
      ∧ (cycleReturn { feedback 0 with atHome := true } 0 0 200 .retracting { Bank.initial with live := [noteHome] }
        { cycleAt 0 (.drill (drillWork .retract)) with phase := .homeWait }).bank.notes = 1 := by decide

/-- The peck of section 7.10, in a stage. -/
def peckWork (st : DrillStage) : DrillWork :=
  { drillWork st with
    prof := { DrillFields.initial with acceleration := 40, approachSpeed := 800, retractSpeed := 1200 }
    layers := [{ thickness := 12000, feed := 120 }]
    contact := some 60520, peckDepth := some 66040, peckLayer := some 1 }

/-- R110, section 7.10: PECK_OUT's boundary step leaves its speed, and PECK_IN's first step starts from 0. -/
theorem test_peck_turns_round :
    ({ runOf 58560 (.drill (peckWork .peckOut)) with
        cyc := { cycleAt 58560 (.drill (peckWork .peckOut)) with s := 40, phase := .rampDown } } : Run).drillStep (feedback 0)
      = { runOf 58560 (.drill (peckWork .peckIn)) with
          cyc := { cycleAt 58560 (.drill (peckWork .peckIn)) with p := 58520, s := 40 } }
      ∧ ({ runOf 58520 (.drill (peckWork .peckIn)) with
          cyc := { cycleAt 58520 (.drill (peckWork .peckIn)) with s := 40 } } : Run).drillStep (feedback 0)
        = { runOf 58520 (.drill (peckWork .peckIn)) with
            cyc := { cycleAt 58520 (.drill (peckWork .peckIn)) with p := 58560, s := 40 } } := by decide

/-- The request of section 1.10: GROUP CONFIG of group 1 to 800,000, as it stands in its MGMT section. -/
theorem test_group_config_of_section_1_10 :
    decodeRequest ([0x62, 0x37, 0x00, 0x00, 0x01, 0x00, 0x35, 0x0C, 0x00] ++ List.replicate 71 0x00)
      = .request (.groupConfig 1 800000) := by decide

theorem test_read_lengths :
    (headBytes 0 (headIn .idle [0, 1, 2, 3, 4, 5, 6, 7])).length = 59 ∧ (headBytes 0 (headIn .idle [])).length = 59
      ∧ (holeBytes 0 hole0).length = 42 ∧ record0.bytes.length = 47 := by decide

/-! ## Witnesses: for every statement with hypotheses, a state and operands that meet them, clause by clause -/

/-- A part whose pins sampled an address. -/
def atAddress (pins : BitVec 6) : State := { State.reset with ring := { State.reset.ring with address := pins } }

theorem test_witness_StepRunsTheFrontCommand : State.reset.pending = [] := by decide

theorem test_witness_StationResetKeepsAddressAndFrameInFlight :
    State.reset.ring.active = true ∧ (atAddress 62).ring.active = true := by decide

theorem test_witness_AssertedResetTakesNothing :
    (run .resetPinAssert State.reset).ring.inReset = true ∧ Instr.jigStart.isRequest = true
      ∧ (atAddress 0).ring.address = 0 ∧ (atAddress 63).ring.address = 63 ∧ (atAddress 63).ring.inReset = false := by decide

theorem test_witness_StopPinChangeBringsTheHalt :
    State.reset.ring.active = true ∧ State.reset.ring.halt = false ∧ (halted State.reset).ring.active = true
      ∧ (halted State.reset).ring.halt = true := by decide

theorem test_witness_FramesForwardedUnchanged :
    State.reset.ring.inReset = false ∧ (atAddress 0).ring.transparent = true ∧ (atAddress 63).ring.transparent = true
      ∧ classify otherFrame = .other ∧ State.reset.ring.transparent = false ∧ classify smallest.bytes = .cycle smallest
      ∧ State.reset.ring.inFlight ≠ some smallest.seq := by decide +kernel

theorem test_witness_DamagedFrameCountedAndForwarded :
    State.reset.ring.active = true ∧ classify [] = .damaged ∧ classify (smallest.bytes.set 12 0) = .damaged
      ∧ State.reset.ring.inFlight = none ∧ ({ State.reset.ring with inFlight := some 7 } : Ring).inFlight = some 7 := by
  decide +kernel

/-- The smallest frame with another byte in it, and a fresh check. -/
def smallestBut (offset : Nat) (b : Byte) : List Byte := withCheck ((smallest.bytes.take 9).set offset b)

/-- Each way of being damaged, at the edge of its range where it has one; the smallest frame is sound. -/
theorem test_witness_DamagedFrameCountedAndForwarded_classification :
    (smallest.header.length = 7 ∧ byteAt smallest.header 0 = 0x01
        ∧ ∀ x ∈ smallest.sections, x.id ≤ 255 ∧ x.payload.length ≤ 255)
      ∧ (checkPasses (smallest.bytes.set 12 0) = false ∧ checkPasses (smallestBut 4 14) = true
        ∧ (halfAt (smallestBut 4 14) 4).toNat ≠ (smallestBut 4 14).length)
      ∧ ((smallestBut 4 13).length = 13 ∧ checkPasses otherFrame = true ∧ (halfAt otherFrame 4).toNat = otherFrame.length
        ∧ byteAt otherFrame 0 ≠ 0x01)
      ∧ (byteAt (smallestBut 6 0) 6 = 0 ∧ 48 < (byteAt (smallestBut 6 49) 6).toNat)
      ∧ ((∃ x ∈ (frameOf 7 0 [{ id := 0, payload := [] }]).sections, x.id = 0 ∨ x.id = 255)
        ∧ ∃ x ∈ (frameOf 7 0 [{ id := 40, payload := [] }, { id := 255, payload := [1] }]).sections, x.id = 0 ∨ x.id = 255)
      ∧ (byteAt ({ smallest with header := smallest.header.set 6 2 } : Frame).header 6).toNat ≠ smallest.sections.length := by
  decide +kernel

/-- The smallest frame is a sound one, and 254 is an id of one. -/
theorem test_witness_sound_frames :
    smallest.sound ∧ (frameOf 7 0 [{ id := 1, payload := [] }, { id := 254, payload := List.replicate 255 0 }]).sound := by
  refine ⟨⟨by decide, by decide, by decide +kernel, by decide +kernel, by decide, by decide, by decide, by decide⟩,
    ⟨by decide, by decide +kernel, by decide +kernel, by decide +kernel, by decide +kernel, by decide, by decide, by decide +kernel⟩⟩

theorem test_witness_LostFrameCountsAndFaultsAtTheLimit :
    min (State.reset.ring.losses + 1) 255 < State.reset.ring.lossLimit
      ∧ ({ State.reset.ring with losses := 2 } : Ring).lossLimit ≤ min (({ State.reset.ring with losses := 2 } : Ring).losses + 1) 255
      ∧ (State.reset.head 0).state.inService = false ∧ ((benchWith (headIn .idle [])).head 0).state.inService = true := by
  decide

theorem test_witness_OutboundCycleFrameIsTaken :
    State.reset.ring.active = true ∧ classify smallest.bytes = .cycle smallest
      ∧ (∀ x ∈ smallest.sections, x.id ≠ 192 + State.reset.ring.address.toNat) ∧ State.reset.ring.inFlight = none
      ∧ ({ State.reset.ring with inFlight := some 6 } : Ring).inFlight = some 6 := by decide +kernel

/-- A frame that carries a GROUP CONFIG for station 1. -/
def requestFrame : Frame := frameOf 7 1 [{ id := 193, payload := (encodeRequest 0x37 (.groupConfig 1 800000)).getD [] }]

theorem test_witness_OutboundCycleFrameIsTaken_halt_requests_and_missing_sections :
    State.reset.ring.halt = false ∧ requestFrame.halt = true ∧ (halted State.reset).ring.halt = true ∧ smallest.halt = false
      ∧ classify requestFrame.bytes = .cycle requestFrame
      ∧ (∀ x ∈ requestFrame.sections, x.id = 192 + State.reset.ring.address.toNat →
          decodeRequest x.payload ≠ .request .stationReset)
      ∧ (headIn .idle []).state.inService = true ∧ Role.carriage 0 ∉ [Role.tool 0] ∧ Role.tool 0 ∉ [Role.carriage 0]
      ∧ (State.reset.head 0).state.inService = false
      ∧ (Role.carriage 0 ∈ [Role.tool 0, Role.carriage 0] ∧ Role.tool 0 ∈ [Role.tool 0, Role.carriage 0]) := by
  decide +kernel

theorem test_witness_MatchingReturnIsTaken :
    ({ State.reset.ring with inFlight := some 7 } : Ring).active = true ∧ classify smallest.bytes = .cycle smallest
      ∧ ({ State.reset.ring with inFlight := some 7 } : Ring).inFlight = some smallest.seq := by decide +kernel

/-- A pass of a station whose map gives id 10 to a STATUS section. -/
def statusPass : Pass :=
  Pass.begin { State.reset.toStation with ring := { State.reset.ring with map := [(0, { id := 10, role := .status })] } } []

theorem test_witness_SectionOutsideTheMapIsUntouched :
    (10 ∈ ({ statusPass with seen := [10] } : Pass).seen)
      ∧ (40 ≠ 192 + statusPass.fall.station.ring.address.toNat ∧ ∀ e ∈ statusPass.fall.station.ring.map, e.2.id ≠ 40)
      ∧ (193 = 192 + statusPass.fall.station.ring.address.toNat ∧ (List.replicate 79 (0 : Byte)).length ≠ 80)
      ∧ (10 ≠ 192 + statusPass.fall.station.ring.address.toNat
          ∧ statusPass.fall.station.ring.roleOfId 10 = some .status
          ∧ (List.replicate 31 (0 : Byte)).length ≠ Role.status.length) := by decide

theorem test_witness_SectionOutsideTheMapIsUntouched_taken :
    10 ∉ statusPass.seen
      ∧ (193 = 192 + statusPass.fall.station.ring.address.toNat ∧ (List.replicate 80 (0 : Byte)).length = 80)
      ∧ (10 ≠ 192 + statusPass.fall.station.ring.address.toNat
          ∧ ∃ r, statusPass.fall.station.ring.roleOfId 10 = some r ∧ (List.replicate 32 (0 : Byte)).length = r.length)
      ∧ mapLegal statusPass.station.ring.map := by
  refine ⟨by decide, by decide, ⟨by decide, .status, by decide⟩, by decide, ?_, by decide⟩
  intro r
  cases r <;> simp [statusPass, Pass.begin, Role.room]

theorem test_witness_ManagementSectionRunsTheRequest :
    State.reset.ring.active = true ∧ (encodeRequest 0x37 (.groupConfig 1 800000)).map decodeRequest = some (.request (.groupConfig 1 800000))
      ∧ decodeRequest (List.replicate 80 0) = .empty ∧ decodeRequest (0xFF :: List.replicate 79 0) = .unknown := by decide

theorem test_witness_HeldAnswerIsWritten :
    (List.replicate 80 (0 : Byte)).length = 80 ∧ State.reset.mgmt.answer = none
      ∧ (run .mapClear State.reset).mgmt.answer = some (.done [])
      ∧ (run (.groupConfig 0 (w32 (-1))) State.reset).mgmt.answer = some (.clamped [])
      ∧ (run .jigStart State.reset).mgmt.answer = some (.refused .state) ∧ (List.replicate 76 (0 : Byte)).length ≤ 76 := by
  decide

theorem test_witness_StatusSectionShowsTheStation :
    ∃ out, out = (returnSection (.role .status) (List.replicate 32 0) State.reset.toStation).2 := ⟨_, rfl⟩

theorem test_witness_ResultSlotTakesTheOldestRecord :
    byteAt [1] 0 ≠ 0 ∧ State.reset.results.records = [] ∧ byteAt [0] 0 = 0
      ∧ ({ State.reset.results with records := [record0] } : ResultQueue).records = record0 :: [] := by decide

/-- A held gate, and one that waits to rejoin. -/
def gateIn (st : GateState) : Gate := { Gate.initial with state := st, held := some { x := 100, t := 0 } }

theorem test_witness_OutboundSetpointsOfCarriageAndTool :
    (um 150 ++ um 0 ++ List.replicate 10 (0 : Byte)).length = 18 ∧ (State.reset.head 0).gate.state = .opened
      ∧ (gateIn .held).state = .held ∧ (gateIn .held).held = some { x := 100, t := 0 }
      ∧ (gateIn .rejoin).state = .rejoin ∧ (gateIn .rejoin).held = some { x := 100, t := 0 }
      ∧ (wordAt (um 150 ++ um 0) 0).toInt = 150
      ∧ (((150 - 100 : Int).natAbs : Int) ≤ (State.reset.head 0).cfg.settleBand)
      ∧ ¬ (((151 - 100 : Int).natAbs : Int) ≤ (State.reset.head 0).cfg.settleBand)
      ∧ (List.replicate 20 (0 : Byte)).length = 20 ∧ (State.reset.head 0).engine = none
      ∧ (Cycle.begin 0 (.drill (drillWork .approach))).begun = false
      ∧ (cycleAt 0 (.drill (drillWork .approach))).begun = true ∧ (cycleAt 0 (.set (setWork .feedWait))).begun = true := by
  decide

/-- A result queue with some records, thresholds 8 and 0, and a hold. -/
def queueOf (n : Nat) (hold : Bool) : Station :=
  { State.reset.toStation with results := { records := List.replicate n record0, upper := 8, lower := 0, hold } }

theorem test_witness_FaultCauseStopsTheHead :
    (State.reset.head 0).state.inService = false ∧ (headIn .idle []).state.inService = true ∧ (headIn .idle []).engine = none
      ∧ (working .engaged (cycleAt 0 (.drill (drillWork .seek)))).state.inService = true
      ∧ (working .engaged (cycleAt 0 (.drill (drillWork .seek)))).engine = some (cycleAt 0 (.drill (drillWork .seek)))
      ∧ (bench hole0).hole 0 = some hole0
      ∧ (headIn .idle []).claim = none ∧ (claiming .settling).claim = some { hole := 0, claimX := 1000000 }
      ∧ (claiming .settling).engine = none ∧ (claiming .settling).state.inService = true
      ∧ (queueOf 7 false).results.upper ≤ (queueOf 7 false).results.records.length + 1
      ∧ (queueOf 6 false).results.records.length + 1 < (queueOf 6 false).results.upper := by decide

/-- R63, R73: a cause that reaches a SETTLING head leaves no claimant on its hole. -/
theorem test_fault_clears_the_claimant :
    ((benchWith (claiming .settling)).hole 0).map (fun v => v.claimant) = some (some 0)
      ∧ ((benchWith (claiming .settling)).toStation.toFault 0 .spurLoss).hole 0 = some hole0 := by decide

/-- A payload that reports a drive status at an offset. -/
def reporting (offset : Nat) (code : Byte) : List Byte := (List.replicate 20 0).set offset code

theorem test_witness_FaultCauseStopsTheHead_drive_status :
    1 < (byteAt (reporting 17 2) 17).toNat ∧ 1 < (byteAt (reporting 18 0xFF) 18).toNat
      ∧ (State.reset.head 0).state.inService = false ∧ (headIn .fault []).state.inService = false
      ∧ (headIn .halted []).state.inService = true := by decide

theorem test_witness_EngagementBeginsTheCycle :
    (claiming .armed).claim = some { hole := 0, claimX := 1000000 } ∧ (bench hole0).hole 0 = some hole0
      ∧ (bench hole0).profile 0 = some drillProfile ∧ (claiming .armed).cfg.kind = .drill ∧ hole0.drill = some 0
      ∧ drillProfile.body = .drill .initial [(1, { thickness := 5000, feed := 40 })]
      ∧ (bench hole0).profile 1 = some setProfile
      ∧ ({ (claiming .armed).cfg with kind := .set } : HeadConfig).kind = .set ∧ hole0.set = some 1
      ∧ setProfile.body = .set .initial := by decide

/-- The four answers of the arbiter. -/
theorem test_arbiter_answers :
    (halted (benchWith (headIn .seeking [0]))).arbitrate 0 hole0 = .halted
      ∧ (benchWith (headIn .seeking [0])).arbitrate 0 { hole0 with claimant := some 1 } = .busy
      ∧ ({ (benchWith (claiming .armed)).withHead 1 { headIn .seeking [0] with cfg := (Head.atReset 0).cfg } with
          keepOut := { n0 := 1, n1 := 0, n2 := 0, n3 := 0 } } : State).arbitrate 1 hole0 = .keepOut
      ∧ ({ (benchWith (claiming .armed)).withHead 1 { headIn .seeking [0] with cfg := (Head.atReset 0).cfg } with
          keepOut := { n0 := 0, n1 := 0, n2 := 0, n3 := 0 } } : State).arbitrate 1 hole0 = .granted := by decide

/-- A SETTLING head on its claim, with a deviation. -/
def settlingHead (count : Nat) (d : Int) (mode : StartMode) : Head :=
  { claiming .settling with
    settle := count, cfg := { (claiming .settling).cfg with startMode := mode }
    gate := { Gate.initial with deviation := some { x := d, t := 0 } } }

theorem test_witness_SettlingHeadTestsItsReturn :
    (settlingHead 0 50 .auto).claim = some { hole := 0, claimX := 1000000 } ∧ (bench hole0).hole 0 = some hole0
      ∧ (settlingHead 0 50 .auto).gate.deviation = some { x := 50, t := 0 }
      ∧ ¬ (((1000501 + 0 - ((bench hole0).correctedPosition hole0).x : Int).natAbs : Int) ≤ (settlingHead 0 50 .auto).cfg.window)
      ∧ (((1000500 + 0 - ((bench hole0).correctedPosition hole0).x : Int).natAbs : Int) ≤ (settlingHead 0 50 .auto).cfg.window)
      ∧ ¬ (((51 : Int).natAbs : Int) ≤ (settlingHead 0 51 .auto).cfg.settleBand)
      ∧ (((50 : Int).natAbs : Int) ≤ (settlingHead 0 50 .auto).cfg.settleBand)
      ∧ (settlingHead 2 50 .auto).settle + 1 < (settlingHead 2 50 .auto).cfg.settleCount
      ∧ (settlingHead 3 50 .auto).cfg.settleCount ≤ (settlingHead 3 50 .auto).settle + 1
      ∧ (settlingHead 3 50 .auto).cfg.startMode = .auto ∧ (settlingHead 3 50 .explicit).cfg.startMode = .explicit := by
  decide

/-- The states of a CARRIAGE return: each with its claim, its hole or its held position, on both sides of the shift limit. -/
theorem test_witness_SettlingHeadTestsItsReturn_by_head_state :
    Gate.initial.sent = none ∧ ({ gateIn .held with sent := some { x := 100, t := 0 } } : Gate).sent = some { x := 100, t := 0 }
      ∧ (gateIn .held).state = .held ∧ (gateIn .held).held = some { x := 100, t := 0 } ∧ Gate.initial.state ≠ .held
      ∧ byteAt (reporting 17 0) 17 = 0 ∧ byteAt (reporting 17 1) 17 = 1
      ∧ (headIn .seeking [0]).state = .seeking
      ∧ ((claiming .settling).claim = some { hole := 0, claimX := 1000000 } ∧ (bench hole0).hole 0 = some hole0)
      ∧ (claiming .armed).claim = some { hole := 0, claimX := 1000000 }
      ∧ (((1000500 + 0 - ((bench hole0).correctedPosition hole0).x : Int).natAbs : Int) ≤ (claiming .armed).cfg.window)
      ∧ ¬ (((1000501 + 0 - ((bench hole0).correctedPosition hole0).x : Int).natAbs : Int) ≤ (claiming .armed).cfg.window)
      ∧ (working .engaged (cycleAt 0 (.drill (drillWork .seek)))).state = .engaged
      ∧ (working .frozen (cycleAt 0 (.drill (drillWork .seek)))).state = .frozen
      ∧ (claiming .engaged).cfg.shiftLimit < max ((100 - 401 : Int).natAbs : Int) ((0 - 0 : Int).natAbs : Int)
      ∧ max ((100 - 400 : Int).natAbs : Int) ((0 - 0 : Int).natAbs : Int) ≤ (claiming .engaged).cfg.shiftLimit
      ∧ (headIn .retracting []).state = .retracting := by decide

theorem test_witness_StaleTestsInOrder :
    (({ State.reset.results with hold := true } : ResultQueue).hold = true ∧ (headIn .seeking []).queue = [])
      ∧ (bench hole0).results.hold = false ∧ (headIn .seeking [0]).queue = 0 :: [] ∧ (bench hole0).hole 0 = some hole0
      ∧ staleTests .drill hole0 ((match HeadKind.drill with
        | .drill => hole0.drill
        | .set => hole0.set).bind (bench hole0).profile) = .passed
      ∧ staleTests .drill { hole0 with state := .skipped } (some drillProfile) = .discard .state
      ∧ staleTests .drill hole0 none = .discard .profile ∧ staleTests .set { hole0 with state := .drilled } (some drillProfile)
        = .discard .profile
      ∧ staleTests .drill { hole0 with depth := 1999 } (some drillProfile) = .discard .limit
      ∧ staleTests .drill { hole0 with depth := 2000 } (some drillProfile) = .passed
      ∧ staleTests .set { hole0 with state := .suspect } (some setProfile) = .discard .state
      ∧ staleTests .set { hole0 with state := .drilled, stroke := 4500 } (some setProfile) = .passed
      ∧ staleTests .set { hole0 with state := .drilled, stroke := 4499 } (some setProfile) = .discard .limit
      ∧ staleTests .drill hole0 (openBench.profile 0) = .wait
      ∧ (gateIn .rejoin).state ≠ .opened ∧ Gate.initial.state = .opened
      ∧ (((1000500 + 0 - ((bench hole0).correctedPosition hole0).x : Int).natAbs : Int) ≤ (headIn .seeking [0]).cfg.window)
      ∧ ¬ (((1000501 + 0 - ((bench hole0).correctedPosition hole0).x : Int).natAbs : Int) ≤ (headIn .seeking [0]).cfg.window) := by
  decide

theorem test_witness_CycleEndAppliesTheOutcome :
    (working .retracting { cycleAt 0 (.drill (drillWork .retract)) with decision := some (.good, .none) }).engine
        = some { cycleAt 0 (.drill (drillWork .retract)) with decision := some (.good, .none) }
      ∧ (working .retracting (cycleAt 0 (.drill (drillWork .retract)))).claim
        = some { hole := (cycleAt 0 (.drill (drillWork .retract))).hole, claimX := 1000000 }
      ∧ (bench hole0).hole (cycleAt 0 (.drill (drillWork .retract))).hole = some hole0
      ∧ (hole0.drillOutcome .aborted none).attempts = 1
      ∧ ({ hole0 with attempts := 2 }.drillOutcome .cancelled none).state = .rejected
      ∧ (hole0.setOutcome .interrupted true).state = .rejected ∧ (hole0.setOutcome .interrupted false).attempts = 1 := by
  decide

/-- A drilling cycle with both depths, one without, and a setting cycle. -/
theorem test_witness_CycleEndAppliesTheOutcome_depths_and_fields :
    ({ drillWork .retract with contact := some 10000, breakthrough := some 15000 } : DrillWork).contact = some 10000
      ∧ ({ drillWork .retract with contact := some 10000, breakthrough := some 15000 } : DrillWork).breakthrough = some 15000
      ∧ ((drillWork .retract).contact = none ∨ (drillWork .retract).breakthrough = none)
      ∧ (cycleAt 0 (.drill (drillWork .retract))).work = .drill (drillWork .retract)
      ∧ (cycleAt 0 (.set (setWork .retract))).work = .set (setWork .retract)
      ∧ (gateIn .held).state = .held ∧ ((bench hole0).results.records.length + 1 = 1)
      ∧ ((bench hole0).table.jig = .working ∧ (bench hole0).table.complete = false) := by decide

theorem test_witness_RampStepKeepsSpeedAndBoundary :
    (0 : Int) ≤ 0 ∧ (drillWork .seek |>.leg none true).outward = false ∧ (drillWork .retract |>.leg none true).outward = true
      ∧ (Phase.rampDown ≠ .run) ∧ (0 : Int) < 40 ∧ (40 : Int) ≤ 40
      ∧ ((120 : Int) < 800 ∧ (800 - 120 : Int) = 17 * 40 + 0 ∧ (0 : Int) < 40)
      ∧ ((120 : Int) < 799 ∧ (799 - 120 : Int) = 16 * 40 + 39 ∧ (0 : Int) ≤ 39 ∧ (39 : Int) < 40) := by decide

/-- Section 7.4, steps 1 and 2, at the ramp test and beside it; the steps of a stop, at rest and at its bound. -/
theorem test_witness_RampStepKeepsSpeedAndBoundary_ramp_test_and_stops :
    (Phase.run = .run ∧ (40 : Int) < 200 ∧ (30550 - (30000 + 200) : Int) < slowDistance 20 200 40 + 0)
      ∧ ¬ (Phase.run = .run ∧ (40 : Int) < 200 ∧ (30550 - (29470 + 200) : Int) < slowDistance 20 200 40 + 0)
      ∧ ¬ (Phase.rampDown = .run ∧ (40 : Int) < 160 ∧ (30550 - (30180 + 160) : Int) < slowDistance 20 160 40 + 0)
      ∧ max (20 - 20 : Int) 0 = 0 ∧ (max (40 - 20 : Int) 0 ≠ 0 ∧ (100 : Int) < 81 + max (40 - 20) 0)
      ∧ (80 : Int) + max (40 - 20) 0 ≤ 100 := by decide

/-- A frozen head's, a stopping and a waiting return. -/
theorem test_witness_DrillDetectors_returns_and_steps :
    (headIn .idle []).state.inCycle = false
      ∧ (∀ c, (working .engaged (Cycle.begin 0 (.drill (drillWork .approach)))).engine = some c → c.sent = none)
      ∧ (working .engaged (cycleAt 0 (.drill (drillWork .approach)))).state.inCycle = true
      ∧ byteAt (reporting 18 0) 18 = 0 ∧ byteAt (reporting 18 1) 18 = 1
      ∧ (cycleReturn (feedback 0) 0 0 200 .engaged .initial (cycleAt 0 (.drill (drillWork .approach)))).verdict = .going
      ∧ (cycleReturn { feedback 0 with atHome := true } 0 0 200 .retracting .initial
          { cycleAt 0 (.drill (drillWork .retract)) with phase := .homeWait }).verdict = .home
      ∧ (cycleReturn (feedback 0) 0 0 200 .retracting .initial
          { cycleAt 0 (.drill (drillWork .retract)) with phase := .homeWait, homeWait := 1000 }).verdict = .lost
      ∧ ((feedback 20000).force ≤ (drillWork .seek).prof.overloadForce ∧ (drillWork .seek).prof.overloadForce < (feedback 20001).force)
      ∧ (runOf 0 (.drill (drillWork .seek))).state ≠ .frozen
      ∧ ((runOf 0 (.drill (drillWork .seek))).stepDone = false ∧ (runOf 0 (.drill (drillWork .seek))).verdict = .going
        ∧ (runOf 0 (.drill (drillWork .seek))).cyc.phase = .run)
      ∧ (rampStep 20 (drillWork .approach |>.leg none false) .run 7999 20).atBound = true
      ∧ (rampStep 20 (drillWork .approach |>.leg none false) .run 0 0).atBound = false := by
  refine ⟨by decide, ?_, by decide, by decide, by decide, by decide, by decide, by decide, by decide, by decide, by decide,
    by decide, by decide⟩
  intro c hc
  cases hc
  rfl

/-- A CUT stage under a chip load limit of 100, on each side of its counts; the stack on each side of its tolerance. -/
def chipWork (count pecks : Nat) : DrillWork :=
  { drillWork (.cut 1) with prof := { DrillFields.initial with chipLoadTorque := 100 }, torqueCount := count, pecks }

theorem test_witness_DrillDetectors_torque_stack_and_legs :
    (drillWork (.cut 1)).prof.chipLoadTorque = 0 ∧ (chipWork 0 0).prof.chipLoadTorque ≠ 0
      ∧ ((chipWork 0 0).prof.chipLoadTorque < 101 ∧ ¬ (chipWork 0 0).prof.chipLoadTorque < 100)
      ∧ (chipWork 1 0).torqueCount + 1 < (chipWork 1 0).prof.torqueCount
      ∧ ((chipWork 2 3).prof.torqueCount ≤ (chipWork 2 3).torqueCount + 1 ∧ (chipWork 2 3).prof.maxPecks ≤ (chipWork 2 3).pecks)
      ∧ ((chipWork 2 2).prof.torqueCount ≤ (chipWork 2 2).torqueCount + 1 ∧ (chipWork 2 2).pecks < (chipWork 2 2).prof.maxPecks)
      ∧ ((((15500 - 10000) - ((drillWork .overtravel).layers.map Layer.thickness).sum : Int).natAbs : Int)
          ≤ (drillWork .overtravel).prof.stackTolerance)
      ∧ ¬ ((((15501 - 10000) - ((drillWork .overtravel).layers.map Layer.thickness).sum : Int).natAbs : Int)
          ≤ (drillWork .overtravel).prof.stackTolerance)
      ∧ (0 < (drillWork (.cut 0)).layers.length ∧ (drillWork (.cut 1)).layers.length ≤ 1)
      ∧ ({ drillWork .peckIn with peckDepth := some 12000, peckLayer := some 1 } : DrillWork).peckLayer = some 1 := by decide

/-- A stage that has turned round and stands at its boundary, and one that has left it. -/
theorem test_witness_DrillDetectors_turned_stages :
    (58520 : Int) = max ((peckWork .peckIn).contact.getD 0 - (peckWork .peckIn).prof.clearance) 0
      ∧ (58560 : Int) ≠ max ((peckWork .peckIn).contact.getD 0 - (peckWork .peckIn).prof.clearance) 0
      ∧ (({ drillWork .retract with breakthrough := some 70000 } : DrillWork).breakthrough.map
          fun pb => pb + (drillWork .retract).prof.overtravel) = some 72000
      ∧ ({ drillWork .overtravel with contact := some 10000, breakthrough := some 15000 } : DrillWork).contact = some 10000
      ∧ ((runOf 58520 (.drill (peckWork .peckIn))).verdict = .going
        ∧ (runOf 58520 (.drill (peckWork .peckIn))).stepDone = false) := by decide

theorem test_witness_DrillDetectorsRecogniseAndTimeOut :
    (drillWork .seek).prof.contactForce ≤ (feedback 1000).force
      ∧ (drillWork .seek).prof.contactCount ≤ ({ drillWork .seek with contactCount := 1 } : DrillWork).contactCount + 1
      ∧ 0 < (drillWork .seek).prof.contactCount ∧ (14000 : Int) = (drillWork .seek).surface + (drillWork .seek).prof.contactWindow
      ∧ (13999 : Int) ≠ (drillWork .seek).surface + (drillWork .seek).prof.contactWindow
      ∧ (feedback 300).force ≤ (drillWork .exit).prof.breakthroughForce
      ∧ (drillWork .exit).prof.breakthroughCount ≤ ({ drillWork .exit with breakthroughCount := 1 } : DrillWork).breakthroughCount + 1
      ∧ 0 < (drillWork .exit).prof.breakthroughCount
      ∧ (2000 : Int) = (drillWork .exit).layerEnd.getD 0 + (drillWork .exit).prof.lateLimit
      ∧ (1999 : Int) ≠ (drillWork .exit).layerEnd.getD 0 + (drillWork .exit).prof.lateLimit
      ∧ (runOf 2000 (.drill (drillWork .exit))).cyc.sent = some 2000 := by decide

theorem test_witness_SqueezeEndsInHoldShortOrLong :
    ({ setWork .squeeze with contact := some 30000 } : SetWork).contact = some 30000
      ∧ (setWork .squeeze).prof.setForce ≤ (feedback 8000).force
      ∧ (setWork .squeeze).prof.contactCount ≤ ({ setWork .squeeze with forceCount := 1 } : SetWork).forceCount + 1
      ∧ (setWork .squeeze).prof.formedMin + (setWork .squeeze).gripComp ≤ (34000 - 30000 : Int)
      ∧ (33999 - 30000 : Int) < (setWork .squeeze).prof.formedMin + (setWork .squeeze).gripComp
      ∧ 0 < (setWork .squeeze).prof.contactCount
      ∧ (36500 : Int) = max (30000 + (setWork .squeeze).prof.formedMax + (setWork .squeeze).gripComp) 30000
      ∧ (36499 : Int) ≠ max (30000 + (setWork .squeeze).prof.formedMax + (setWork .squeeze).gripComp) 30000 := by decide

theorem test_witness_SqueezeEnds_obstruction_rivet_and_steps :
    ((feedback 199).force < (setWork .advance).prof.contactForce ∧ (setWork .advance).prof.contactForce ≤ (feedback 200).force)
      ∧ ((setWork .seek).prof.contactCount ≤ ({ setWork .seek with contactCount := 1 } : SetWork).contactCount + 1
        ∧ (28499 : Int) < (setWork .seek).expected - (setWork .seek).prof.gripWindow
        ∧ (setWork .seek).expected - (setWork .seek).prof.gripWindow ≤ (28500 : Int))
      ∧ (0 < (setWork .seek).prof.contactCount ∧ (31500 : Int) = (setWork .seek).expected + (setWork .seek).prof.gripWindow
        ∧ (31499 : Int) ≠ (setWork .seek).expected + (setWork .seek).prof.gripWindow)
      ∧ (cycleAt 0 (.set (setWork .advance))).work = .set (setWork .advance)
      ∧ (runOf 0 (.set (setWork .advance))).state ≠ .frozen
      ∧ ((runOf 0 (.set (setWork .advance))).stepDone = false ∧ (runOf 0 (.set (setWork .advance))).verdict = .going)
      ∧ ((setWork .advance).leg).isSome = true ∧ (setWork .feedWait).leg = none ∧ (setWork .hold).leg = none := by decide

/-- A live comparator: FORCE above 2,500 in stages 2 to 7, twice. -/
def live0 : LiveComparator :=
  { slot := 0, count := 1, fired := false
    record := { source := .force, condition := .above, low := 2500, high := 0, mask := 0x00FC, count := 2, action := .retract } }

theorem test_witness_ComparatorFiresOnItsCount :
    (live0.record.mask.getLsbD 2 && live0.record.holds (sourceValue (feedback 2501) 0 0 live0.record.source)) = true
      ∧ (live0.record.mask.getLsbD 2 && live0.record.holds (sourceValue (feedback 2500) 0 0 live0.record.source)) = false
      ∧ (live0.record.mask.getLsbD 1 && live0.record.holds (sourceValue (feedback 2501) 0 0 live0.record.source)) = false
      ∧ live0.fires (feedback 2501) 0 0 2 = true := by decide

/-- A live comparator of slot k with an action. -/
def acting (k : Nat) (a : Action) : LiveComparator := { live0 with slot := k, record := { live0.record with action := a } }

theorem test_witness_ComparatorFiresOnItsCount_actions :
    (HeadState.frozen ≠ .engaged ∧ HeadState.frozen ≠ .retracting)
      ∧ ({ low := 1, high := 2, source := .force, condition := .inside, mask := 1, count := 1, action := .note } : Comparator).holds 2
        = true
      ∧ ([acting 0 .note, acting 1 .ease, acting 2 .freeze, acting 3 .retract].filter fun l => l.record.action == .retract)
        = [acting 3 .retract]
      ∧ ([acting 0 .note, acting 1 .ease, acting 2 .freeze].filter fun l => l.record.action == .retract) = []
      ∧ ([acting 0 .note, acting 1 .ease, acting 2 .freeze].filter fun l => l.record.action == .freeze) ≠ []
      ∧ ([acting 0 .note, acting 1 .ease].filter fun l => l.record.action == .freeze) = []
      ∧ ([acting 0 .note, acting 1 .ease].filter fun l => l.record.action == .ease) ≠ []
      ∧ ([acting 0 .note].filter fun l => l.record.action == .ease) = []
      ∧ (runOf 0 (.drill (drillWork (.cut 1)))).cyc.decision = none ∧ (runOf 0 (.drill (drillWork (.cut 1)))).state = .engaged
      ∧ ({ cycleAt 0 (.drill (drillWork .retract)) with decision := some (.good, .none) } : Cycle).decision ≠ none
      ∧ (drillWork .peckOut).stage = .peckOut ∧ (drillWork (.cut 1)).stage = .cut 1
      ∧ Bank.initial.latch = none := by decide

theorem test_witness_SpinUpLimitAborts :
    (benchWith (working .engaged { cycleAt 8000 (.drill (drillWork .approach)) with frames := 251 })).ring.active = true
      ∧ (working .engaged { cycleAt 8000 (.drill (drillWork .approach)) with frames := 251 }).state = .engaged
      ∧ (cycleAt 8000 (.drill (drillWork .approach))).sent = some 8000 ∧ (drillWork .approach).contact = none
      ∧ (drillWork .approach).prof.spinUpLimit < 251 ∧ (drillWork .approach).spindleReady = false
      ∧ (((1425 : Half).toNat : Int) - (drillWork .approach).prof.spindleSpeed).natAbs * 20 ≤ (drillWork .approach).prof.spindleSpeed
      ∧ ¬ (((1424 : Half).toNat : Int) - (drillWork .approach).prof.spindleSpeed).natAbs * 20
          ≤ (drillWork .approach).prof.spindleSpeed := by decide

theorem test_witness_ToolNotHomeFaults :
    (benchWith (working .retracting { cycleAt 0 (.drill (drillWork .retract)) with phase := .homeWait, homeWait := 1000 })).ring.active
        = true
      ∧ (working .retracting (cycleAt 0 (.drill (drillWork .retract)))).state.inCycle = true
      ∧ (cycleAt 0 (.drill (drillWork .retract))).sent = some 0
      ∧ ((200 : Word).toInt ≤ (Head.atReset 0).cfg.homeBand ∧ ¬ (201 : Word).toInt ≤ (Head.atReset 0).cfg.homeBand) := by
  decide

theorem test_witness_RivetFeedLimitAborts :
    (benchWith (working .engaged { cycleAt 0 (.set (setWork .feedWait)) with frames := 201 })).ring.active = true
      ∧ (working .engaged (cycleAt 0 (.set (setWork .feedWait)))).state = .engaged
      ∧ (cycleAt 0 (.set (setWork .feedWait))).sent = some 0 ∧ (setWork .feedWait).stage = .feedWait
      ∧ (setWork .feedWait).prof.feedLimit < 201 := by decide

theorem test_witness_DwellCompleteDecides :
    (benchWith (working .engaged (cycleAt 34000 (.set { setWork .hold with dwellCount := 19 })))).ring.active = true
      ∧ (working .engaged (cycleAt 34000 (.set { setWork .hold with dwellCount := 19 }))).state = .engaged
      ∧ (cycleAt 34000 (.set (setWork .hold))).sent = some 34000 ∧ (setWork .hold).stage = .hold
      ∧ (setWork .hold).prof.dwell ≤ ({ setWork .hold with dwellCount := 19 } : SetWork).dwellCount + 1
      ∧ (setWork .hold).prof.holdForce ≤ (6000 : Half).toNat ∧ (5999 : Half).toNat < (setWork .hold).prof.holdForce := by
  decide

/-- The tests of the four limits where a TOOL return makes them, on each side of their limits. -/
theorem test_witness_limits_where_a_return_makes_them :
    (({ cycleAt 0 (.drill (drillWork .seek)) with frames := 251 } : Cycle).frames > (drillWork .seek).prof.spinUpLimit
        ∧ ¬ (drillWork .seek).prof.spinUpLimit < ({ cycleAt 0 (.drill (drillWork .seek)) with frames := 250 } : Cycle).frames)
      ∧ ((cycleAt 1 (.drill (drillWork .retract))).sent ≠ some 0 ∧ (cycleAt 0 (.drill (drillWork .retract))).phase ≠ .homeWait
        ∧ ({ cycleAt 0 (.drill (drillWork .retract)) with phase := .homeWait } : Cycle).phase = .homeWait)
      ∧ ({ cycleAt 0 (.set (setWork .feedWait)) with frames := 200 } : Cycle).frames ≤ (setWork .feedWait).prof.feedLimit
      ∧ (setWork .feedWait).prof.feedLimit < ({ cycleAt 0 (.set (setWork .feedWait)) with frames := 201 } : Cycle).frames
      ∧ ((5999 : Nat) < (setWork .hold).prof.holdForce ∧ (setWork .hold).prof.holdForce ≤ (6000 : Nat))
      ∧ ({ setWork .hold with dwellCount := 18 } : SetWork).dwellCount + 1 < (setWork .hold).prof.dwell
      ∧ (setWork .hold).prof.dwell ≤ ({ setWork .hold with dwellCount := 19 } : SetWork).dwellCount + 1 := by decide

/-! ### Requests -/

theorem test_witness_JigSessionOpensStartsAndEnds :
    (bench hole0).ring.active = true ∧ State.reset.table.jig ≠ .working ∧ (bench hole0).table.jig = .working
      ∧ firstFailing (jigStartChecks (loadingBench hole0)) = none ∧ firstFailing (jigStartChecks State.reset) = some .state
      ∧ firstFailing (jigReleaseChecks (bench hole0)) = none
      ∧ firstFailing (jigReleaseChecks (benchWith (claiming .settling))) = some .state := by decide

theorem test_witness_HolesAreWrittenInTwoHalves :
    firstFailing (holeWriteAChecks 1023 25000000 3000000 2 (loadingBench hole0)) = none ∧ (2 : Byte) = Face.top.code
      ∧ firstFailing (holeWriteAChecks 0 0 0 0 State.reset) = some .state
      ∧ firstFailing (holeWriteAChecks 1024 0 0 0 (loadingBench hole0)) = some .badIndex
      ∧ firstFailing (holeWriteAChecks 1023 25000001 0 0 (loadingBench hole0)) = some .badValue
      ∧ firstFailing (holeWriteBChecks 0 31 0xFF 250000 80000
          { loadingBench hole0 with table := { (loadingBench hole0).table with halfA := some { index := 0, x := 0, t := 0, face := .left } } })
        = none
      ∧ firstFailing (holeWriteBChecks 0 0 0 0 0 State.reset) = some .state
      ∧ firstFailing (holeWriteBChecks 1024 0 0 0 0 (loadingBench hole0)) = some .badIndex
      ∧ firstFailing (holeWriteBChecks 0 0 0 0 0 (loadingBench hole0)) = some .noHalfA
      ∧ firstFailing (holeWriteBChecks 0 0xFF 0xFF 0 0
          { loadingBench hole0 with table := { (loadingBench hole0).table with halfA := some { index := 0, x := 0, t := 0, face := .left } } })
        = some .badValue
      ∧ Table.wf (loadingBench hole0).table.holes = true := by decide

theorem test_witness_HoleSkipTakesTheHoleOut :
    firstFailing (holeSkipChecks 0 (bench hole0)) = none ∧ (bench hole0).hole (0 : Half).toNat = some hole0
      ∧ firstFailing (holeSkipChecks 0 State.reset) = some .state
      ∧ firstFailing (holeSkipChecks 1 (bench hole0)) = some .badIndex
      ∧ firstFailing (holeSkipChecks 0 (benchWith (claiming .settling))) = some .state
      ∧ firstFailing (holeSkipChecks 0 (bench { hole0 with state := .skipped })) = some .state := by decide

/-- Two staging points, in order or not. -/
def staged (a b : Int) : State :=
  { State.reset with correction := { staging := [(0, ⟨a, 0, 0⟩), (1, ⟨b, 0, 0⟩)], active := [] } }

theorem test_witness_CorrectionTablesAreWritten :
    State.reset.ring.active = true ∧ firstFailing (correctionPointChecks 15 25000000 (w32 (-20000)) 20000) = none
      ∧ firstFailing (correctionPointChecks 16 0 0 0) = some .badIndex
      ∧ firstFailing (correctionPointChecks 15 0 (w32 (-20001)) 0) = some .badValue
      ∧ firstFailing (correctionCommitChecks 2 (staged 0 1)) = none ∧ firstFailing (correctionCommitChecks 0 State.reset) = none
      ∧ firstFailing (correctionCommitChecks 17 (staged 0 1)) = some .badValue
      ∧ firstFailing (correctionCommitChecks 3 (staged 0 1)) = some .order
      ∧ firstFailing (correctionCommitChecks 2 (staged 1 1)) = some .order := by decide

theorem test_witness_CorrectionInterpolatesAndHoldsItsEnds :
    (1000000 : Int) ≤ (⟨1000000, 800, -50⟩ : Point).x
      ∧ ([] ++ [(⟨1000000, 800, -50⟩ : Point)]).Pairwise (fun u v : Point => u.x < v.x)
      ∧ ([] ++ (⟨1000000, 800, -50⟩ : Point) :: ⟨11000000, 3000, 150⟩ :: []).Pairwise (fun u v : Point => u.x < v.x)
      ∧ (1000000 : Int) ≤ 10999999 ∧ (10999999 : Int) < 11000000 ∧ (0 : Int) < 2
      ∧ 2 * ((-1 : Int) - roundQuotient (-1) 2 * 2).natAbs = (2 : Int).natAbs := by decide

theorem test_witness_ProfileBeginOpensWithDefaults :
    firstFailing (profileBeginChecks 31 1 State.reset) = none ∧ firstFailing (profileBeginChecks 32 0 State.reset) = some .badIndex
      ∧ firstFailing (profileBeginChecks 0 2 State.reset) = some .badValue
      ∧ firstFailing (profileBeginChecks 0 0 (benchWith (claiming .settling))) = some .inUse
      ∧ firstFailing (profileBeginChecks 1 0 (benchWith (claiming .settling))) = some .inUse := by decide

theorem test_witness_ProfileFieldsReplaceOneGroup :
    firstFailing (profileFieldsChecks 0 2 (List.replicate 74 0) openBench) = none
      ∧ openBench.profile (0 : Byte).toNat = some { drillProfile with state := .loading }
      ∧ (List.replicate 74 (0 : Byte)).length = 74
      ∧ firstFailing (profileFieldsChecks 32 0 [] openBench) = some .badIndex
      ∧ firstFailing (profileFieldsChecks 0 0 [] (bench hole0)) = some .state
      ∧ firstFailing (profileFieldsChecks 0 3 [] openBench) = some .badValue
      ∧ firstFailing (profileFieldsChecks 1 2 (List.replicate 74 2) openBench) = some .badValue
      ∧ firstFailing (profileFieldsChecks 1 2 (List.replicate 74 1) openBench) = none := by decide

theorem test_witness_ProfileSlotsAreWrittenAsSent :
    firstFailing (profileLayerChecks 0 6 openBench) = none
      ∧ openBench.profile (0 : Byte).toNat = some { drillProfile with state := .loading }
      ∧ drillProfile.body = .drill .initial [(1, { thickness := 5000, feed := 40 })]
      ∧ firstFailing (profileLayerChecks 0 7 openBench) = some .badIndex
      ∧ firstFailing (profileLayerChecks 0 0 openBench) = some .badIndex
      ∧ firstFailing (profileLayerChecks 0 1 (bench hole0)) = some .state
      ∧ firstFailing (profileLayerChecks 1 1 openBench) = some .operation
      ∧ firstFailing (profileComparatorChecks 0 5 0 0xFF 0xFF openBench) = none
      ∧ firstFailing (profileComparatorChecks 0 5 6 3 4 openBench) = none
      ∧ (6 : Byte) = Source.carriageDev.code ∧ (3 : Byte) = Condition.outside.code ∧ (4 : Byte) = Action.retract.code
      ∧ firstFailing (profileComparatorChecks 0 6 0 0 0 openBench) = some .badIndex
      ∧ firstFailing (profileComparatorChecks 0 0 0 0 0 (bench hole0)) = some .state
      ∧ firstFailing (profileComparatorChecks 0 0 7 0 0 openBench) = some .badValue
      ∧ firstFailing (profileComparatorChecks 0 0 1 4 0 openBench) = some .badValue := by decide

theorem test_witness_ProfileEndClampsAndChecks :
    firstFailing (profileEndChecks 0 openBench) = none
      ∧ openBench.profile (0 : Byte).toNat = some { drillProfile with state := .loading }
      ∧ structuralFailure drillProfile.body.clamp [] = none
      ∧ structuralFailure (Body.drill .initial []).clamp [] = some .noLayers
      ∧ firstFailing (profileEndChecks 32 openBench) = some .badIndex
      ∧ firstFailing (profileEndChecks 0 (bench hole0)) = some .state := by decide

/-- The order of the structural checks: a profile that fails each, with the later ones too. -/
theorem test_witness_ProfileEndClampsAndChecks_structure :
    ([(1, { thickness := 5000, feed := 40 })] : Table Layer).getLast? = some (1, { thickness := 5000, feed := 40 })
      ∧ structuralFailure (.drill .initial [(2, { thickness := 500, feed := 40 })]) [] = some .layerGap
      ∧ structuralFailure (.drill .initial [(1, { thickness := 2000, feed := 40 })]) [] = some .exitWindow
      ∧ structuralFailure (.drill .initial [(1, { thickness := 2001, feed := 40 })]) [] = none
      ∧ structuralFailure (.drill { DrillFields.initial with breakthroughForce := 1000 } [(1, { thickness := 5000, feed := 40 })]) []
        = some .breakthroughForce
      ∧ structuralFailure (.drill { DrillFields.initial with overloadForce := 1000 } [(1, { thickness := 5000, feed := 40 })]) []
        = some .overload
      ∧ structuralFailure (.set { SetFields.initial with overloadForce := 8000 }) [] = some .overload
      ∧ structuralFailure (.set { SetFields.initial with formedMax := 4000 }) [] = some .formedStroke
      ∧ structuralFailure (.set { SetFields.initial with holdForce := 8001 }) [] = some .holdForce
      ∧ structuralFailure (.set .initial) [(0, { live0.record with condition := .inside, low := 1, high := 0 })]
        = some .comparatorLimits
      ∧ structuralFailure (.set .initial) [(0, { live0.record with condition := .above, low := 1, high := 0 })] = none := by decide

theorem test_witness_HeadConfigStoresClampedValues :
    firstFailing (headConfigChecks 0 1 2 1 State.reset) = none ∧ (1 : Byte) = HeadKind.set.code ∧ (2 : Byte) = Face.top.code
      ∧ (1 : Byte) = StartMode.explicit.code
      ∧ firstFailing (headConfigChecks 0 0 0 0 (benchWith (headIn .idle []))) = some .state
      ∧ firstFailing (headConfigChecks 0 2 0 0 State.reset) = some .badValue
      ∧ firstFailing (headConfigChecks 0 0 3 0 State.reset) = some .badValue
      ∧ firstFailing (headConfigChecks 0 0 0 2 State.reset) = some .badValue := by decide

theorem test_witness_GroupConfigStoresTheKeepOut :
    firstFailing (groupConfigChecks 0 3000000 State.reset) = none
      ∧ firstFailing (groupConfigChecks 0 1
          ((benchWith (claiming .armed)).withHead 1 { claiming .armed with cfg := (Head.atReset 0).cfg })) = some .inUse
      ∧ keepOutClamped 3000001 = 3000000 ∧ keepOutClamped (w32 (-1)) = 0 := by decide

/-- A map that gives head 0 both its sections. -/
def mapped : State :=
  { State.reset with
    ring := { State.reset.ring with map := [(0, { id := 10, role := .carriage 0 }), (1, { id := 11, role := .tool 0 })] } }

theorem test_witness_HeadsGoInAndOutOfService :
    mapped.ring.active = true ∧ firstFailing (headEnableChecks 0 mapped) = none
      ∧ firstFailing (headEnableChecks 0 (benchWith (headIn .idle []))) = some .state
      ∧ firstFailing (headEnableChecks 0 State.reset) = some .map
      ∧ firstFailing (headDisableChecks 0 State.reset) = none ∧ (State.reset.head 0).state = .offline
      ∧ firstFailing (headDisableChecks 0 (benchWith (claiming .settling))) = none ∧ (claiming .settling).state ≠ .offline
      ∧ firstFailing (headDisableChecks 0 (benchWith (headIn .engaged []))) = some .state
      ∧ firstFailing (headClearChecks 0 (benchWith (headIn .fault []))) = none
      ∧ firstFailing (headClearChecks 0 (benchWith (headIn .halted []))) = none
      ∧ firstFailing (headClearChecks 0 (benchWith (headIn .idle []))) = some .state := by decide

theorem test_witness_AssignJoinsAndWithdrawLeaves :
    firstFailing (assignChecks 0 0 (benchWith (headIn .idle []))) = none
      ∧ firstFailing (assignChecks 0 1024 (benchWith (headIn .idle []))) = some .badIndex
      ∧ firstFailing (assignChecks 0 0 State.reset) = some .state
      ∧ firstFailing (assignChecks 0 1 (benchWith (headIn .idle []))) = some .badIndex
      ∧ firstFailing (assignChecks 0 0 (benchWith (headIn .idle [1, 2, 3, 4, 5, 6, 7, 8]))) = some .full
      ∧ firstFailing (assignChecks 0 0 (benchWith (headIn .seeking [0]))) = some .duplicate
      ∧ firstFailing (assignChecks 0 0 ((bench { hole0 with face := .top }).withHead 0 (headIn .idle []))) = some .face
      ∧ firstFailing (assignChecks 0 0 ((bench { hole0 with drill := none }).withHead 0 (headIn .idle []))) = some .operation
      ∧ ([0, 1].filter fun i => decide ((claiming .armed).claim.map (fun c => c.hole) = some i)) = [0] := by decide

theorem test_witness_StartEngagesTheArmedHeadsNamed :
    firstFailing (startChecks 0x01 (benchWith (claiming .armed))) = none
      ∧ started 0x01 (benchWith (claiming .armed)) 0 = true
      ∧ firstFailing (startChecks 0xF0 (benchWith (claiming .armed))) = some .state := by decide

theorem test_start_engages :
    ((run (.start 0x01) (benchWith (claiming .armed))).head 0).state = .engaged
      ∧ (run (.start 0x01) (benchWith (claiming .armed))).mgmt.answer = some (.done [1]) := by decide

theorem test_witness_FrozenAndHaltedHeadsGoOn :
    firstFailing (resumeChecks 0 (benchWith (headIn .halted [0]))) = none
      ∧ firstFailing (resumeChecks 0 (benchWith (working .frozen (cycleAt 8000 (.drill (drillWork (.cut 1))))))) = none
      ∧ firstFailing (resumeChecks 0 (halted (benchWith (headIn .halted [0])))) = some .state
      ∧ firstFailing (resumeChecks 0 (benchWith (headIn .idle []))) = some .state
      ∧ firstFailing (cancelChecks 0 (benchWith (working .frozen (cycleAt 8000 (.drill (drillWork (.cut 1))))))) = none
      ∧ firstFailing (cancelChecks 0 (benchWith (headIn .halted []))) = some .state
      ∧ (cycleAt 8000 (.drill (drillWork .seek))).work.retracting = false
      ∧ (cycleAt 8000 (.drill (drillWork .seek))).work.outward = false
      ∧ (cycleAt 8000 (.drill (drillWork .seek))).phase ≠ .stopping
      ∧ (cycleAt 8000 (.drill (drillWork .seek))).work.bound = some 14000
      ∧ (cycleAt 8000 (.drill (drillWork .seek))).s = 0
      ∧ ({ cycleAt 8000 (.drill (drillWork .seek)) with s := 20 } : Cycle).s ≠ 0
      ∧ (cycleAt 8000 (.drill (drillWork .seek))).p ≠ 14000 := by decide

/-- A cycle that retracts, one that stops, one that pecks, one that does not move. -/
theorem test_witness_FrozenAndHaltedHeadsGoOn_ramped_retracts :
    (cycleAt 8000 (.drill (drillWork .retract))).work.retracting = true
      ∧ ({ cycleAt 8000 (.drill (drillWork .seek)) with phase := .stopping } : Cycle).phase = .stopping
      ∧ (cycleAt 8000 (.drill (drillWork .peckOut))).work.outward = true
      ∧ (cycleAt 8000 (.drill (drillWork .peckOut))).work.retracting = false
      ∧ (cycleAt 0 (.set (setWork .feedWait))).work.bound = none
      ∧ (cycleAt 14000 (.drill (drillWork .seek))).p = 14000 := by decide

/-- A peck that has turned round at its boundary. -/
theorem test_witness_FrozenAndHaltedHeadsGoOn_turned :
    (∃ d, (cycleAt 58520 (.drill (peckWork .peckIn))).work = .drill d ∧ d.stage = .peckIn
        ∧ (cycleAt 58520 (.drill (peckWork .peckIn))).p = max (d.contact.getD 0 - d.prof.clearance) 0)
      ∧ (cycleAt 58520 (.drill (peckWork .peckIn))).work.bound = some 65040
      ∧ (peckWork .peckIn).peckDepth = some 66040
      ∧ ({ cycleAt 58520 (.drill (peckWork .peckIn)) with s := 40 } : Cycle).s ≠ 0 :=
  ⟨⟨peckWork .peckIn, rfl, rfl, by decide⟩, by decide, by decide, by decide⟩

theorem test_witness_NumbersAboveThreeAreRefused :
    State.reset.ring.active = true ∧ 3 < (4 : Byte).toNat ∧ 3 < (255 : Byte).toNat := by decide

theorem test_witness_MapIsWrittenAndCleared :
    firstFailing (mapWriteChecks 31 191 4 0 State.reset) = none ∧ firstFailing (mapWriteChecks 0 0 0 0 State.reset) = none
      ∧ firstFailing (mapWriteChecks 0 1 1 3 State.reset) = none
      ∧ firstFailing (mapWriteChecks 0 1 1 0 (benchWith (headIn .idle []))) = some .state
      ∧ firstFailing (mapWriteChecks 32 1 1 0 State.reset) = some .badIndex
      ∧ firstFailing (mapWriteChecks 0 1 1 4 State.reset) = some .badValue
      ∧ firstFailing (mapWriteChecks 0 0 3 0 State.reset) = some .badValue
      ∧ firstFailing (mapWriteChecks 2 10 3 0 mapped) = some .duplicate
      ∧ firstFailing (mapWriteChecks 2 12 1 0 mapped) = some .full
      ∧ someHeadInService State.reset = false ∧ someHeadInService (benchWith (headIn .idle [])) = true := by decide

theorem test_witness_StationConfigAndTheHoldTest :
    (7 : Nat) = max 1 (min 7 (8 : Byte).toNat) ∧ (8 : Nat) = max 8 (min 60 (7 : Half).toNat)
      ∧ (0 : Nat) = min (8 - 8) (1 : Half).toNat
      ∧ ((queueOf 8 false).results.hold = false ∧ (queueOf 8 false).results.upper ≤ (queueOf 8 false).results.records.length)
      ∧ (queueOf 7 false).results.records.length < (queueOf 7 false).results.upper
      ∧ ((queueOf 0 true).results.hold = true ∧ (queueOf 0 true).results.records.length ≤ (queueOf 0 true).results.lower)
      ∧ (queueOf 1 true).results.lower < (queueOf 1 true).results.records.length := by decide

theorem test_witness_ResultFlushEmptiesTheQueue : State.reset.ring.active = true ∧ 0 < State.reset.results.upper := by decide

/-- Fault sets with one kind raw. -/
def faultsOf (enable : BitVec 15) (armed : Bool) : FaultUnit := { raw := 1, enable, attention := false, armed }

theorem test_witness_FaultSetsAndAttention :
    State.reset.ring.active = true
      ∧ ((faultsOf 0 true).raw &&& (0x8001 : Half).setWidth 15 &&& ~~~(faultsOf 0 true).enable ≠ 0 ∧ (faultsOf 0 true).armed = true)
      ∧ (faultsOf 1 true).raw &&& (1 : Half).setWidth 15 &&& ~~~(faultsOf 1 true).enable = 0
      ∧ (faultsOf 0 false).armed = false
      ∧ (faultsOf 0 false).raw &&& (faultsOf 0 false).enable = 0 ∧ (faultsOf 1 false).raw &&& (faultsOf 1 false).enable ≠ 0 := by
  decide

theorem test_witness_FaultSetsAndAttention_raise :
    (FaultKind.halt.bit &&& (faultsOf 0x7FFF true).enable &&& ~~~(faultsOf 0x7FFF true).raw ≠ 0
        ∧ (faultsOf 0x7FFF true).armed = true)
      ∧ FaultKind.frameDamaged.bit &&& (faultsOf 0x7FFF true).enable &&& ~~~(faultsOf 0x7FFF true).raw = 0
      ∧ FaultKind.halt.bit &&& (faultsOf 0 true).enable &&& ~~~(faultsOf 0 true).raw = 0
      ∧ (faultsOf 0x7FFF false).armed = false := by decide

theorem test_witness_ReadsAnswerAndChangeNothing :
    (bench hole0).ring.active = true ∧ 1023 < (1024 : Half).toNat ∧ (1023 : Half).toNat ≤ 1023
      ∧ (bench hole0).hole (1023 : Half).toNat = none ∧ (bench hole0).hole (0 : Half).toNat = some hole0
      ∧ hole0.measured = none ∧ hole0.last = none
      ∧ (headIn .idle [0, 1, 2, 3, 4, 5, 6, 7]).queue.length ≤ 8 ∧ (claiming .armed).claim = some { hole := 0, claimX := 1000000 }
      ∧ (headIn .idle []).claim = none
      ∧ 2 < (3 : Byte).toNat ∧ (1 : Byte).toNat < 2 ∧ 15 < (16 : Half).toNat ∧ (15 : Half).toNat ≤ 15
      ∧ (staged 0 1).correction.active[(15 : Half).toNat]? = none
      ∧ Table.find (staged 0 1).correction.staging (1 : Half).toNat = some ⟨1, 0, 0⟩
      ∧ State.reset.results.records.length ≤ (0 : Byte).toNat
      ∧ (queueOf 1 false).results.records[(0 : Byte).toNat]? = some record0 := by decide

/-- The parts of PROFILE READ: known and unknown, of an EMPTY profile, a drill profile and a set profile. -/
theorem test_witness_ReadsAnswerAndChangeNothing_profile_parts :
    31 < (32 : Byte).toNat ∧ (31 : Byte).toNat ≤ 31
      ∧ ¬ ((0x04 : Byte).toNat ≤ 0x03 ∨ (0x04 : Byte) = 0x10 ∨ (0x20 ≤ (0x04 : Byte).toNat ∧ (0x04 : Byte).toNat ≤ 0x25))
      ∧ ¬ ((0x26 : Byte).toNat ≤ 0x03 ∨ (0x26 : Byte) = 0x10 ∨ (0x20 ≤ (0x26 : Byte).toNat ∧ (0x26 : Byte).toNat ≤ 0x25))
      ∧ (0x20 ≤ (0x25 : Byte).toNat ∧ (0x25 : Byte).toNat ≤ 0x25) ∧ (0x25 : Byte).toNat = 0x20 + 5
      ∧ (bench hole0).profile 2 = none ∧ (bench hole0).profile 0 = some drillProfile ∧ (bench hole0).profile 1 = some setProfile
      ∧ drillProfile.body = .drill .initial [(1, { thickness := 5000, feed := 40 })] ∧ setProfile.body = .set .initial
      ∧ Table.find drillProfile.body.layers (0 + 1) = some { thickness := 5000, feed := 40 }
      ∧ Table.find drillProfile.body.layers (1 + 1) = none ∧ Table.find drillProfile.comparators 5 = none
      ∧ Table.find [(5, live0.record)] 5 = some live0.record := by decide

/-- A record with a latch, and the two groups. -/
theorem test_witness_ReadsAnswerAndChangeNothing_result_groups :
    record0.latch = none ∧ record0.group = .none
      ∧ (-2147483648 : Int) ≤ 2147483647
      ∧ ({ record0 with latch := some { comparator := 5, setpoint := 14000, source := 2501 } } : Result).latch
        = some { comparator := 5, setpoint := 14000, source := 2501 }
      ∧ (cycleAt 0 (.drill (drillWork .retract))).group
        = .drill { contact := 0, breakthrough := 0, stack := 0, peakForce := 0, peakTorque := 0, pecks := 0, overTorque := 0 }
      ∧ (cycleAt 0 (.set (setWork .retract))).group
        = .set { contact := 0, final := 0, formed := 0, peakForce := 0, dwell := 0, gripComp := 0 } := by decide

theorem test_witness_RequestsSurviveTheWire :
    (Instr.profileFields 0 0 (List.replicate 74 0)).isRequest = true
      ∧ (Instr.profileFields 0 0 (List.replicate 74 0)).wellFormed = true ∧ (List.replicate 74 (0 : Byte)).length = 74
      ∧ (stageCode (some (cycleAt 0 (.drill (drillWork .approach)))) = 0x01
        ∧ (cycleAt 0 (.drill (drillWork .approach))).work = .drill (drillWork .approach)
        ∧ (cycleAt 0 (.set (setWork .hold))).work = .set (setWork .hold))
      ∧ (({ drillProfile with state := .loading } : Profile).state = .loading ∧ drillProfile.state = .valid
        ∧ ({ drillProfile with state := .invalid .noLayers } : Profile).state = .invalid .noLayers)
      ∧ 4 < (5 : Byte).toNat := by decide

/-! ### Witnesses of the invariants: a state with a cycle in flight and a command waiting -/

/-- Head 0 drills hole 0, and a JIG RELEASE waits. -/
def busy : State := { benchWith (working .engaged (cycleAt 8000 (.drill (drillWork .seek)))) with pending := [.jigRelease] }

theorem test_witness_every_step_goes_on : (after (step busy)).isSome = true := by decide

theorem test_witness_EveryStepKeepsTheQueueLaw : busy.queuesLegal := by
  show ∀ h : HeadNo, (busy.head h).queue.length ≤ 8 ∧ (busy.head h).queue.Nodup
  decide

theorem test_witness_EveryStepKeepsClaimsAndKeepOut : busy.headsLegal ∧ busy.keepOutLegal := by
  constructor
  · show ∀ h : HeadNo, (busy.head h).claim.isSome = (busy.head h).state.claiming
      ∧ (busy.head h).engine.isSome = (busy.head h).state.inCycle
    decide
  · intro i j hne _ a b ha hb
    have hc : ∀ h : HeadNo, h ≠ 0 → (busy.head h).claim = none := by decide
    by_cases hi : i = 0
    · rw [hc j (fun hj => hne (hi.trans hj.symm))] at hb; cases hb
    · rw [hc i hi] at ha; cases ha

theorem test_witness_EveryStepKeepsTheHaltLaw : (halted busy).haltLegal ∧ (halted busy).ring.halt = true := by
  constructor
  · intro _ _
    show ∀ h : HeadNo, ((halted busy).head h).state.startsWork = false
    decide
  · decide

theorem test_witness_EveryStepKeepsTheAttentionLaw : busy.attentionLegal ∧ busy.faults.armed = true := by
  constructor
  · intro _; decide
  · decide

theorem test_witness_EveryStepKeepsTheTables :
    mapLegal busy.ring.map ∧ busy.correctionLegal ∧ busy.canonical = true := by
  refine ⟨⟨by decide, fun r => Nat.zero_le _, by decide⟩, ?_, by decide⟩
  show ascending busy.correction.active = true ∧ busy.correction.active.length ≤ 16
  decide

theorem test_witness_EveryStepKeepsTheResultBound : busy.headsLegal ∧ busy.resultsLegal := by
  refine ⟨test_witness_EveryStepKeepsClaimsAndKeepOut.1, ?_⟩
  show 8 ≤ busy.results.upper ∧ busy.results.upper ≤ 60 ∧ busy.results.lower + 8 ≤ busy.results.upper
    ∧ (busy.results.hold = false → busy.results.records.length < busy.results.upper)
    ∧ (busy.results.hold = true → busy.results.lower < busy.results.records.length)
    ∧ busy.results.records.length + busy.claims ≤ 63
  decide

end Sys2Proof.Tests
end

section
/-!
The section map, the correction points and the sparse tables (R18, R45, R47): what keeps each of them legal and canonical, and
that every step does.
-/
namespace Sys2Proof.Machine

/-! ## The section map -/

theorem Table.remove_sublist {α : Type} (t : Table α) (k : Nat) : (Table.remove t k).Sublist t := by
  induction t with
  | nil => exact List.Sublist.refl _
  | cons e rest ih =>
    obtain ⟨j, a⟩ := e
    unfold Table.remove
    split
    · exact List.sublist_cons_self _ _
    · exact ih.cons_cons _

theorem mapLegal_of_sublist {m n : Table MapEntry} (h : m.Sublist n) (hn : mapLegal n) : mapLegal m := by
  obtain ⟨hids, hroom, hrange⟩ := hn
  exact ⟨hids.sublist (h.map _), fun r => Nat.le_trans (h.filter _).length_le (hroom r), fun e he => hrange e (h.subset he)⟩

theorem mapLegal_of_perm {m n : Table MapEntry} (h : m.Perm n) (hn : mapLegal n) : mapLegal m := by
  obtain ⟨hids, hroom, hrange⟩ := hn
  exact ⟨(h.map _).nodup_iff.mpr hids, fun r => (h.filter _).length_eq ▸ hroom r, fun e he => hrange e (h.subset he)⟩

/-- R19: the checks from DUPLICATE on pass exactly when the id is new and the role has room. -/
theorem mapDenial_eq_none_iff (others : Table MapEntry) (id : Nat) (r : Role) :
    mapDenial others id r = none ↔
      (∀ e ∈ others, e.2.id ≠ id) ∧ (others.filter fun e => e.2.role == r).length < r.room := by
  have hany : (others.any fun e => e.2.id == id) = false ↔ ∀ e ∈ others, e.2.id ≠ id := by
    simp only [List.any_eq_false, beq_iff_eq, ne_eq]
  rw [← hany, mapDenial]
  cases others.any fun e => e.2.id == id
  · simp
  · simp

/-- R18, R19: an entry that passes MAP WRITE's checks keeps the limits of the map. -/
theorem mapLegal_put (m : Table MapEntry) (k id : Nat) (r : Role) (hwf : Table.wf m = true) (hm : mapLegal m) (hk : k ≤ 31)
    (hid : 1 ≤ id ∧ id ≤ 191) (hd : mapDenial (Table.remove m k) id r = none) :
    mapLegal (Table.put m k { id, role := r }) := by
  obtain ⟨hnew, hfree⟩ := (mapDenial_eq_none_iff _ _ _).mp hd
  obtain ⟨hids, hroom, hrange⟩ := mapLegal_of_sublist (Table.remove_sublist m k) hm
  refine mapLegal_of_perm (Table.put_perm m k _ hwf) ⟨?_, fun q => ?_, ?_⟩
  · simpa using ⟨fun j w hj hw => hnew (j, w) hj hw, hids⟩
  · by_cases hq : r = q
    · subst hq; simpa [Nat.succ_le_iff] using hfree
    · simpa [hq] using hroom q
  · rintro e (_ | ⟨_, he⟩)
    · exact ⟨hk, hid⟩
    · exact hrange e he

/-! ## The correction points -/

theorem length_of_mapM_eq_some {α β : Type} (f : α → Option β) (l : List α) (r : List β) (h : l.mapM f = some r) :
    r.length = l.length := by
  induction l generalizing r with
  | nil => simp at h; simp [← h]
  | cons a l ih =>
    simp only [List.mapM_cons, Option.bind_eq_bind, Option.pure_def, Option.bind_eq_some_iff, Option.some.injEq] at h
    obtain ⟨b, _, bs, hbs, rfl⟩ := h
    simp [ih bs hbs]

theorem stagedPoints_length (staging : Table Point) (m : Nat) (points : List Point)
    (h : stagedPoints staging m = some points) : points.length = m := by
  simpa using length_of_mapM_eq_some _ _ _ h

/-! ## The law of the tables -/

/-- R18, R45, R47: the limits of the map, the order of the active points, and every table in its canonical form. -/
def Station.tablesLegal (s : Station) : Prop := mapLegal s.ring.map ∧ s.correctionLegal ∧ s.canonical = true

/-- The hole table is in its canonical form. -/
def Station.holesWf (s : Station) : Prop := Table.wf s.table.holes = true

/-- Every profile is canonical, and so is their table. -/
def profilesWf (p : Table Profile) : Prop := Table.wf p = true ∧ ∀ e ∈ p, e.2.canonical = true

theorem Station.tablesLegal_iff (s : Station) :
    s.tablesLegal ↔ (mapLegal s.ring.map ∧ Table.wf s.ring.map = true)
      ∧ (s.correctionLegal ∧ Table.wf s.correction.staging = true) ∧ s.holesWf ∧ profilesWf s.profiles := by
  simp only [Station.tablesLegal, Station.canonical, Station.holesWf, profilesWf, Bool.and_eq_true, List.all_eq_true]
  constructor
  · rintro ⟨hmap, hpoints, ⟨⟨⟨hmapWf, hholes⟩, hstaging⟩, hprofiles⟩, hcanonical⟩
    exact ⟨⟨hmap, hmapWf⟩, ⟨hpoints, hstaging⟩, hholes, hprofiles, hcanonical⟩
  · rintro ⟨⟨hmap, hmapWf⟩, ⟨hpoints, hstaging⟩, hholes, hprofiles, hcanonical⟩
    exact ⟨hmap, hpoints, ⟨⟨⟨hmapWf, hholes⟩, hstaging⟩, hprofiles⟩, hcanonical⟩

/-- An operation that leaves map, correction and profiles alone keeps the law when it keeps the hole table's form. -/
theorem Station.tablesLegal.of_same {s t : Station} (hs : s.tablesLegal) (hr : t.ring.map = s.ring.map)
    (hc : t.correction = s.correction) (hp : t.profiles = s.profiles) (hh : s.holesWf → t.holesWf) : t.tablesLegal := by
  obtain ⟨hmap, hcor, hholes, hprof⟩ := s.tablesLegal_iff.mp hs
  refine t.tablesLegal_iff.mpr ⟨by rwa [hr], ?_, hh hholes, by rwa [hp]⟩
  simpa [Station.correctionLegal, hc] using hcor

/-! ## What keeps the hole table's form -/

theorem Station.holesWf_of_table {s t : Station} (h : t.table.holes = s.table.holes) (hs : s.holesWf) : t.holesWf := by
  unfold Station.holesWf; rwa [h]

theorem Station.holesWf_putHole (s : Station) (i : Nat) (v : Hole) (hs : s.holesWf) : (s.putHole i v).holesWf :=
  Table.wf_put _ _ _ hs

theorem Station.holesWf_modHole (s : Station) (i : Nat) (f : Hole → Hole) (hs : s.holesWf) : (s.modHole i f).holesWf := by
  unfold Station.modHole
  split
  · exact hs
  · exact s.holesWf_putHole _ _ hs

theorem Station.holesWf_releaseClaim (s : Station) (h : HeadNo) (hs : s.holesWf) : (s.releaseClaim h).holesWf := by
  unfold Station.releaseClaim
  split
  · exact hs
  · exact s.holesWf_modHole _ _ hs

theorem Station.completenessTest_holes (s : Station) : s.completenessTest.table.holes = s.table.holes := by
  unfold Station.completenessTest; split <;> rfl

theorem Station.completenessIfWorking_holes (s : Station) : s.completenessIfWorking.table.holes = s.table.holes := by
  rw [(Station.completenessIfWorking_spec s _ rfl).1]

theorem Station.holesWf_concludeCycle (s : Station) (h : HeadNo) (c : Cycle) (o : CycleOutcome) (why : Reason)
    (hs : s.holesWf) : (s.concludeCycle h c o why).holesWf := by
  refine Station.holesWf_of_table (Station.completenessIfWorking_holes _) ?_
  refine Station.holesWf_of_table (s := (s.releaseClaim h).modHole c.hole (Hole.cycleEnd c o why)) (by simp) ?_
  exact Station.holesWf_modHole _ _ _ (s.holesWf_releaseClaim h hs)

theorem Station.holesWf_failCycle (s : Station) (h : HeadNo) (cause : Reason) (hs : s.holesWf) :
    (s.failCycle h cause).holesWf := by
  unfold Station.failCycle
  split
  · exact hs
  · exact s.holesWf_concludeCycle _ _ _ _ hs

theorem Station.holesWf_toFault (s : Station) (h : HeadNo) (cause : Reason) (hs : s.holesWf) :
    (s.toFault h cause).holesWf := by
  unfold Station.toFault
  split
  · exact Station.holesWf_releaseClaim _ h (s.holesWf_failCycle h cause hs)
  · exact hs

theorem Station.holesWf_finishCycle (s : Station) (h : HeadNo) (hs : s.holesWf) : (s.finishCycle h).holesWf := by
  unfold Station.finishCycle
  split
  · exact hs
  · split
    · exact hs
    · exact s.holesWf_concludeCycle _ _ _ _ hs

theorem Station.holesWf_haltHead (s : Station) (h : HeadNo) (hs : s.holesWf) : (s.haltHead h).holesWf := by
  unfold Station.haltHead
  split
  · exact hs
  · exact hs
  · exact s.holesWf_releaseClaim h hs
  · exact s.holesWf_releaseClaim h hs
  all_goals exact hs

theorem Station.holesWf_haltArrives (s : Station) (hs : s.holesWf) : s.haltArrives.holesWf :=
  Kept.eachHead _ (fun h t => t.holesWf_haltHead h) (s.raise .halt) hs

theorem Station.holesWf_engageOn (s : Station) (h : HeadNo) (i : Nat) (v : Hole) (hs : s.holesWf) :
    (s.engageOn h i v).holesWf := by
  simp only [Station.engageOn]
  split
  · exact hs
  · split
    · exact hs
    · exact s.holesWf_putHole _ _ hs

theorem Station.holesWf_engage (s : Station) (h : HeadNo) (hs : s.holesWf) : (s.engage h).holesWf := by
  obtain he | ⟨i, v, he⟩ := s.onClaimed_cases h (Station.engageOn h)
  · exact (congrArg Station.holesWf he).mpr hs
  · exact (congrArg Station.holesWf he).mpr (s.holesWf_engageOn h i v hs)

/-! ## The profiles -/

theorem profilesWf_put (p : Table Profile) (k : Nat) (q : Profile) (hp : profilesWf p) (hq : q.canonical = true) :
    profilesWf (Table.put p k q) := by
  refine ⟨Table.wf_put _ _ _ hp.1, fun e he => ?_⟩
  obtain rfl | he := Table.mem_put _ _ _ _ he
  · exact hq
  · exact hp.2 e he

theorem profilesWf_find {p : Table Profile} {k : Nat} {q : Profile} (hp : profilesWf p) (h : Table.find p k = some q) :
    q.canonical = true := hp.2 _ (Table.mem_of_find _ _ _ h)

/-- Changing the values under the keys of a table keeps its form. -/
theorem Table.wf_map_values {α β : Type} (f : α → β) (t : Table α) : Table.wf (t.map fun e => (e.1, f e.2)) = Table.wf t := by
  induction t with
  | nil => rfl
  | cons e rest ih =>
    obtain ⟨j, a⟩ := e
    cases rest with
    | nil => rfl
    | cons e' rest =>
      simp only [List.map_cons] at ih
      simp only [List.map_cons, Table.wf, ih]

theorem Profile.canonical_iff (q : Profile) :
    q.canonical = true ↔ Table.wf q.body.layers = true ∧ Table.wf q.comparators = true := by
  obtain ⟨_, body, _, _⟩ := q
  cases body with
  | drill f layers => simp [Profile.canonical, Body.canonical, Body.layers]
  | set f => simp [Profile.canonical, Body.canonical, Body.layers, Table.wf]

theorem Body.layers_write (b : Body) (group : Nat) (values : List Byte) : (b.write group values).layers = b.layers := by
  cases b <;> rfl

theorem Body.wf_layers_clamp (b : Body) : Table.wf b.clamp.layers = Table.wf b.layers := by
  cases b with
  | drill f layers => exact Table.wf_map_values _ layers
  | set f => rfl

theorem Profile.canonical_close (q : Profile) (hq : q.canonical = true) : q.close.canonical = true := by
  obtain ⟨hl, hc⟩ := q.canonical_iff.mp hq
  exact q.close.canonical_iff.mpr ⟨(Body.wf_layers_clamp _).trans hl, (Table.wf_map_values _ _).trans hc⟩

theorem profileBegin_profilesWf (p kind : Byte) (s : Station) (hs : profilesWf s.profiles) :
    profilesWf (profileBegin p kind s).1.profiles := by
  unfold profileBegin
  split
  · exact hs
  · split
    · exact hs
    · next k _ =>
      split
      · exact hs
      · exact profilesWf_put _ _ _ hs (by cases k <;> rfl)

theorem profileFields_profilesWf (p group : Byte) (values : List Byte) (s : Station) (hs : profilesWf s.profiles) :
    profilesWf (profileFields p group values s).1.profiles := by
  unfold profileFields
  split
  · exact hs
  · split
    · exact hs
    · next q hq =>
      obtain ⟨hl, hc⟩ := q.canonical_iff.mp (profilesWf_find hs hq)
      split
      · exact hs
      · split
        · exact hs
        · exact profilesWf_put _ _ _ hs ((Profile.canonical_iff _).mpr ⟨by rwa [Body.layers_write], hc⟩)

theorem profileLayer_profilesWf (p i : Byte) (thickness feed : Word) (s : Station) (hs : profilesWf s.profiles) :
    profilesWf (profileLayer p i thickness feed s).1.profiles := by
  unfold profileLayer
  split
  · exact hs
  · split
    · exact hs
    · next q hq =>
      obtain ⟨hl, hc⟩ := q.canonical_iff.mp (profilesWf_find hs hq)
      split
      · exact hs
      · split
        · exact hs
        · next f layers hb =>
          rw [hb] at hl
          refine profilesWf_put _ _ _ hs ((Profile.canonical_iff _).mpr ⟨?_, hc⟩)
          dsimp only [Body.layers]
          split
          · exact Table.wf_remove _ _ hl
          · exact Table.wf_put _ _ _ hl

theorem profileComparator_profilesWf (p k source condition : Byte) (low high : Word) (mask : Half) (count action : Byte)
    (s : Station) (hs : profilesWf s.profiles) :
    profilesWf (profileComparator p k source condition low high mask count action s).1.profiles := by
  unfold profileComparator
  split
  · exact hs
  · split
    · exact hs
    · next q hq =>
      obtain ⟨hl, hc⟩ := q.canonical_iff.mp (profilesWf_find hs hq)
      split
      · exact hs
      · split
        · exact profilesWf_put _ _ _ hs ((Profile.canonical_iff _).mpr ⟨hl, Table.wf_remove _ _ hc⟩)
        · split
          · exact profilesWf_put _ _ _ hs ((Profile.canonical_iff _).mpr ⟨hl, Table.wf_put _ _ _ hc⟩)
          · exact hs

theorem profileEnd_profilesWf (p : Byte) (s : Station) (hs : profilesWf s.profiles) :
    profilesWf (profileEnd p s).1.profiles := by
  unfold profileEnd
  split
  · exact hs
  · split
    · exact hs
    · next q hq =>
      split
      · exact hs
      · have hput := profilesWf_put _ p.toNat _ hs (q.canonical_close (profilesWf_find hs hq))
        dsimp only
        split
        · exact hput
        · exact hput

/-! ## The requests -/

theorem Station.tablesLegal.profiles {s t : Station} (hs : s.tablesLegal) (hr : t.ring.map = s.ring.map)
    (hc : t.correction = s.correction) (hh : t.table.holes = s.table.holes)
    (hp : profilesWf s.profiles → profilesWf t.profiles) : t.tablesLegal := by
  obtain ⟨hmap, hcor, hholes, hprof⟩ := s.tablesLegal_iff.mp hs
  refine t.tablesLegal_iff.mpr ⟨by rwa [hr], ?_, Station.holesWf_of_table hh hholes, hp hprof⟩
  simpa [Station.correctionLegal, hc] using hcor

theorem holesWf_nil (s : Station) (h : s.table.holes = []) : s.holesWf := by unfold Station.holesWf; rw [h]; rfl

theorem Station.seekIfWork_holesWf (s : Station) (h : HeadNo) (hs : s.holesWf) : (s.seekIfWork h).holesWf :=
  Station.holesWf_of_table (by simp) hs

theorem jigLoad_holesWf (id : Word) (s : Station) (hs : s.holesWf) : (jigLoad id s).1.holesWf := by
  unfold jigLoad
  split
  · exact hs
  · exact holesWf_nil _ rfl

theorem jigStart_holesWf (s : Station) (hs : s.holesWf) : (jigStart s).1.holesWf := by
  unfold jigStart
  split
  · exact hs
  · exact Kept.eachHead _ (fun h t => t.seekIfWork_holesWf h) _
      (Station.holesWf_of_table (Station.completenessTest_holes _) hs)

theorem jigRelease_holesWf (s : Station) (hs : s.holesWf) : (jigRelease s).1.holesWf := by
  unfold jigRelease
  split
  · exact hs
  · exact Kept.eachHead _ (fun h t ht => Station.holesWf_of_table (by simp) ht) _ hs

theorem holeWriteA_holesWf (index : Half) (x t : Word) (face : Byte) (s : Station) (hs : s.holesWf) :
    (holeWriteA index x t face s).1.holesWf := by
  unfold holeWriteA
  repeat' split
  all_goals exact hs

theorem holeWriteB_holesWf (index : Half) (drill set : Byte) (depth stroke : Word) (s : Station) (hs : s.holesWf) :
    (holeWriteB index drill set depth stroke s).1.holesWf := by
  unfold holeWriteB
  repeat' split
  case h_1.isFalse => exact Table.wf_put _ _ _ hs
  all_goals exact hs

theorem holeSkip_holesWf (index : Half) (s : Station) (hs : s.holesWf) : (holeSkip index s).1.holesWf := by
  unfold holeSkip
  repeat' split
  case h_2.isFalse =>
    exact Station.holesWf_of_table (Station.completenessIfWorking_holes _) (s.holesWf_putHole _ _ hs)
  all_goals exact hs

theorem correctionPoint_tablesLegal (k : Byte) (x dx dt : Word) (s : Station) (hs : s.tablesLegal) :
    (correctionPoint k x dx dt s).1.tablesLegal := by
  obtain ⟨hmap, ⟨hcor, hst⟩, hrest⟩ := s.tablesLegal_iff.mp hs
  unfold correctionPoint
  split
  · exact hs
  · split
    · exact hs
    · exact (Station.tablesLegal_iff _).mpr ⟨hmap, ⟨hcor, Table.wf_put _ _ _ hst⟩, hrest⟩

/-- R47: a commit that passes its checks leaves at most 16 points, in strictly ascending X. -/
theorem correctionCommit_tablesLegal (m : Byte) (s : Station) (hs : s.tablesLegal) :
    (correctionCommit m s).1.tablesLegal := by
  obtain ⟨hmap, ⟨hcor, hst⟩, hrest⟩ := s.tablesLegal_iff.mp hs
  unfold correctionCommit
  split
  · exact hs
  · next hm =>
    split
    · exact hs
    · next points hp =>
      split
      · next hasc =>
        have hlen : points.length ≤ 16 := by rw [stagedPoints_length _ _ _ hp]; omega
        exact (Station.tablesLegal_iff _).mpr ⟨hmap, ⟨⟨hasc, hlen⟩, hst⟩, hrest⟩
      · exact hs

/-- A change of the section map alone keeps the law when the new map is legal and canonical. -/
theorem Station.tablesLegal.withMap {s : Station} (hs : s.tablesLegal) (m : Table MapEntry) (hm : mapLegal m)
    (hwf : Table.wf m = true) : ({ s with ring := { s.ring with map := m } } : Station).tablesLegal := by
  obtain ⟨_, hrest⟩ := s.tablesLegal_iff.mp hs
  exact (Station.tablesLegal_iff _).mpr ⟨⟨hm, hwf⟩, hrest⟩

theorem mapLegal_nil : mapLegal [] := ⟨List.nodup_nil, fun _ => Nat.zero_le _, by simp⟩

theorem mapClear_tablesLegal (s : Station) (hs : s.tablesLegal) : (mapClear s).1.tablesLegal := by
  unfold mapClear
  split
  · exact hs
  · exact hs.withMap [] mapLegal_nil rfl

theorem mapWriteEntry_tablesLegal (e : Nat) (id head : Byte) (role : RoleCode) (s : Station) (he : e ≤ 31)
    (hs : s.tablesLegal) : (mapWriteEntry e id head role s).1.tablesLegal := by
  obtain ⟨⟨hmap, hwf⟩, _⟩ := s.tablesLegal_iff.mp hs
  unfold mapWriteEntry
  split
  · exact hs
  · next r _ =>
    split
    · exact hs
    · next hid =>
      split
      · exact hs
      · next hd => exact hs.withMap _ (mapLegal_put _ _ _ r hwf hmap he (by omega) hd) (Table.wf_put _ _ _ hwf)

theorem mapWrite_tablesLegal (e id role head : Byte) (s : Station) (hs : s.tablesLegal) :
    (mapWrite e id role head s).1.tablesLegal := by
  obtain ⟨⟨hmap, hwf⟩, _⟩ := s.tablesLegal_iff.mp hs
  unfold mapWrite
  split
  · exact hs
  · split
    · exact hs
    · next he =>
      split
      · exact hs
      · exact hs.withMap _ (mapLegal_of_sublist (Table.remove_sublist _ _) hmap) (Table.wf_remove _ _ hwf)
      · exact mapWriteEntry_tablesLegal _ _ _ _ _ (by omega) hs

theorem start_holesWf (set : Byte) (s : Station) (hs : s.holesWf) : (start set s).1.holesWf := by
  unfold start
  split
  · refine Kept.eachHead _ (fun h t ht => ?_) s hs
    split
    · exact t.holesWf_engage h ht
    · exact ht
  · exact hs

theorem headDisable_holesWf (h : Byte) (s : Station) (hs : s.holesWf) : (headDisable h s).1.holesWf := by
  unfold headDisable
  obtain he | ⟨j, _, he⟩ := onHead_cases h _ s
  · rw [he]; exact hs
  · rw [he]
    split
    · exact hs
    · split
      · exact hs
      · exact Station.holesWf_releaseClaim s j hs

/-- R169: a reset empties every table. -/
theorem Station.afterReset_tablesLegal (r : Ring) (a : Option Reply) (hr : r.map = []) :
    (Station.afterReset r a).tablesLegal := by
  have hbase : ({ Station.initial r.address r.stopPin with ring := r, mgmt := { answer := a, refused := 0 } } : Station).tablesLegal := by
    refine (Station.tablesLegal_iff _).mpr ⟨?_, ⟨⟨rfl, Nat.zero_le _⟩, rfl⟩, rfl, rfl, by simp [Station.initial]⟩
    simp only [hr]
    exact ⟨mapLegal_nil, rfl⟩
  unfold Station.afterReset
  dsimp only
  split
  · exact hbase
  · exact hbase

/-- The elementary moves of a head keep the law: they change no table but the hole table. -/
theorem tablesLegal_headMoves : HeadMoves Station.tablesLegal where
  raise _ _ hs := hs
  quiet _ _ _ _ hs := hs
  run _ _ _ _ hs := hs
  toFault s h cause hs := hs.of_same (by simp) (by simp) (by simp) (s.holesWf_toFault h cause)
  discard s h i why _ _ hs := hs.of_same (by simp) (by simp) (by simp) (Station.holesWf_of_table (by simp))
  grant s h i v _ _ _ _ hs := hs.of_same (by simp) (by simp) (by simp) (s.holesWf_putHole i _)
  loseWindow s h _ hs := hs.of_same (by simp) (by simp) (by simp) (s.holesWf_releaseClaim h)
  arm _ _ _ hs := hs
  engageOn s h c v _ _ _ hs := hs.of_same (by simp) (by simp) (by simp) (s.holesWf_engageOn h c.hole v)
  finishCycle s h _ hs := hs.of_same (by simp) (by simp) (by simp) (s.holesWf_finishCycle h)

theorem Station.withHalt_tablesLegal (f : Ring → Ring) (s : Station) (hf : (f s.ring).map = s.ring.map) (hs : s.tablesLegal) :
    (s.withHalt f).tablesLegal := by
  have hafter : ({ s with ring := f s.ring } : Station).tablesLegal := hs.of_same hf rfl rfl id
  unfold Station.withHalt
  dsimp only
  split
  · exact hafter.of_same (by simp) (by simp) (by simp) (Station.holesWf_haltArrives _)
  · exact hafter

/-- R18, R45, R47: every request keeps the law. -/
theorem requestEffect_tablesLegal (i : Instr) (f : Station → Station × Reply) (hf : requestEffect i = some f) (s : Station)
    (hs : s.tablesLegal) : (f s).1.tablesLegal := by
  cases i <;> simp only [requestEffect, Option.some.injEq, reduceCtorEq] at hf <;> subst hf
  case jigLoad id => exact hs.of_same (by simp) (by simp) (by simp) (jigLoad_holesWf id s)
  case jigStart => exact hs.of_same (by simp) (by simp) (by simp) (jigStart_holesWf s)
  case jigRelease => exact hs.of_same (by simp) (by simp) (by simp) (jigRelease_holesWf s)
  case holeWriteA => exact hs.of_same (by simp) (by simp) (by simp) (holeWriteA_holesWf _ _ _ _ s)
  case holeWriteB => exact hs.of_same (by simp) (by simp) (by simp) (holeWriteB_holesWf _ _ _ _ _ s)
  case holeSkip => exact hs.of_same (by simp) (by simp) (by simp) (holeSkip_holesWf _ s)
  case correctionPoint => exact correctionPoint_tablesLegal _ _ _ _ s hs
  case correctionCommit => exact correctionCommit_tablesLegal _ s hs
  case profileBegin => exact hs.profiles (by simp) (by simp) (by simp) (profileBegin_profilesWf _ _ s)
  case profileFields => exact hs.profiles (by simp) (by simp) (by simp) (profileFields_profilesWf _ _ _ s)
  case profileLayer => exact hs.profiles (by simp) (by simp) (by simp) (profileLayer_profilesWf _ _ _ _ s)
  case profileComparator =>
    exact hs.profiles (by simp) (by simp) (by simp) (profileComparator_profilesWf _ _ _ _ _ _ _ _ _ s)
  case profileEnd => exact hs.profiles (by simp) (by simp) (by simp) (profileEnd_profilesWf _ s)
  case mapWrite => exact mapWrite_tablesLegal _ _ _ _ s hs
  case mapClear => exact mapClear_tablesLegal s hs
  case start => exact hs.of_same (by simp) (by simp) (by simp) (start_holesWf _ s)
  case headDisable => exact hs.of_same (by simp) (by simp) (by simp) (headDisable_holesWf _ s)
  case stationConfig limit upper lower =>
    exact hs.of_same (by simp [stationConfig]) (by simp) (by simp) (Station.holesWf_of_table (by simp))
  case stationReset => exact Station.afterReset_tablesLegal _ _ rfl
  all_goals exact hs.of_same (by simp) (by simp) (by simp) (Station.holesWf_of_table (by simp))

/-- Every operation from which the commands are made keeps the law of the tables. -/
theorem tablesLegal_kept : Kept Station.tablesLegal where
  book s r m hr hs := by
    obtain ⟨_, _, _, _, _, hmap⟩ := hr
    exact hs.of_same hmap rfl rfl id
  raise _ _ hs := hs
  headerHalt s _ hs := s.withHalt_tablesLegal _ rfl hs
  stopLevel s b hs := by
    unfold Station.stopLevel
    split
    · exact s.withHalt_tablesLegal _ rfl hs
    · exact hs
  toFault := tablesLegal_headMoves.toFault
  beginOutbound := tablesLegal_headMoves.beginOutbound
  carriageOutbound := tablesLegal_headMoves.carriageOutbound
  toolOutbound := tablesLegal_headMoves.toolOutbound
  carriageReturn := tablesLegal_headMoves.carriageReturn
  toolReturn := tablesLegal_headMoves.toolReturn
  drain s l hs := by
    unfold Station.drain
    split
    · exact hs
    · split
      · exact hs
      · exact hs.of_same (by simp) (by simp) (by simp) (Station.holesWf_of_table (by simp))
  request := requestEffect_tablesLegal
  powerOn _ _ _ _ := Station.afterReset_tablesLegal _ _ rfl
  assertReset _ hs := hs
  spinUpLimit := tablesLegal_headMoves.spinUpLimit
  toolNotHome := tablesLegal_headMoves.toolNotHome
  rivetFeedLimit := tablesLegal_headMoves.rivetFeedLimit
  dwellComplete := tablesLegal_headMoves.dwellComplete

/-- Settles O59: the law of the tables is one that every operation keeps. -/
theorem everyStepKeepsTheTables : Obligations.EveryStepKeepsTheTables := by
  intro s t hmap hcor hcan hstep
  exact tablesLegal_kept.step s t hstep ⟨hmap, hcor, hcan⟩

end Sys2Proof.Machine
end

section
/-!
Resets, parts that take nothing, and frames that are forwarded unchanged (R1, R2, R6, R9, R169).
-/
namespace Sys2Proof.Machine

/-- What a command does to the station is what it does to the state. -/
theorem State.onStation_eq {f : Station → Station} {s : State} {u : Station} (h : f s.toStation = u) :
    s.onStation f = .next { s with toStation := u } := by
  rw [← h]; rfl

/-! ## Resets -/

/-- R169, R151: what a reset leaves: the values of every chapter, and HALT raised where STOP is asserted. -/
theorem Station.afterReset_eq (r : Ring) (a : Option Reply) :
    Station.afterReset r a =
      { Station.initial r.address r.stopPin with
        ring := r
        mgmt := { answer := a, refused := 0 }
        faults := { raw := if r.stopPin then FaultKind.halt.bit else 0, enable := BitVec.allOnes 15,
                    attention := r.stopPin, armed := !r.stopPin } } := by
  unfold Station.afterReset
  cases r.stopPin
  · rfl
  · have hraise : (Station.initial r.address true).faults.raise .halt
        = { raw := FaultKind.halt.bit, enable := BitVec.allOnes 15, attention := true, armed := false } := by
      show FaultUnit.raise .halt { raw := 0, enable := BitVec.allOnes 15, attention := false, armed := true } = _
      decide
    show Station.raise .halt _ = _
    rw [Station.raise]
    exact congrArg (fun u : FaultUnit =>
      { Station.initial r.address true with ring := r, mgmt := { answer := a, refused := 0 }, faults := u }) hraise

/-- R169: the values of a reset, with the STOP level taken from the pin. -/
theorem State.afterReset_atResetValues (r : Ring) (a : Option Reply) (s : State) :
    ({ s with toStation := Station.afterReset r a } : State).atResetValues := by
  rw [Station.afterReset_eq]
  refine ⟨rfl, rfl, fun h => ?_, rfl, rfl, rfl⟩
  match h with
  | 0 | 1 | 2 | 3 => exact ⟨rfl, rfl⟩

/-- Settles O3: POWER_ON_RESET leaves the state of `Station.afterReset`. -/
theorem powerOnResetGivesTheResetValues : Obligations.PowerOnResetGivesTheResetValues := by
  intro pins stop s
  exact ⟨{ s with toStation := s.toStation.powerOn pins stop }, rfl, State.afterReset_atResetValues _ _ s,
    Station.afterReset_ring _ _, congrArg Station.mgmt (Station.afterReset_eq _ _), rfl⟩

/-! ## Parts that take nothing -/

theorem Ring.transparent_iff (r : Ring) : r.transparent = true ↔ r.address = 0 ∨ r.address = 63 := by
  simp [Ring.transparent]

theorem Ring.active_iff (r : Ring) : r.active = true ↔ r.inReset = false ∧ r.transparent = false := by
  simp [Ring.active]

theorem Ring.active_eq_false_iff (r : Ring) :
    r.active = false ↔ r.inReset = true ∨ r.address = 0 ∨ r.address = 63 := by
  rw [← Bool.not_eq_true, Ring.active_iff, ← Ring.transparent_iff]
  cases r.inReset <;> simp

/-- The requests are the commands that have an effect in a MGMT section. -/
theorem requestEffect_of_isRequest (c : Instr) (h : c.isRequest = true) : ∃ f, requestEffect c = some f := by
  cases c
  case powerOnReset | resetPinAssert | stopPinChange | outboundPass | returnPass | spinUpLimit | toolNotHome | rivetFeedLimit
    | dwellComplete => exact absurd h Bool.false_ne_true
  all_goals exact ⟨_, rfl⟩

theorem Station.onLimit_inactive (h : HeadNo) (due : Head → Cycle → Bool) (f : Head → Run → Run) (s : Station)
    (ha : s.ring.active = false) : s.onLimit h due f = s := by
  simp [Station.onLimit, ha]

theorem Station.stopLevel_inactive (b : Bool) (s : Station) (ha : s.ring.active = false) :
    s.stopLevel b = { s with ring := { s.ring with stopPin := b } } := by
  simp [Station.stopLevel, ha]

/-- In reset a frame on either port is dropped: only its STOP edges fall. -/
theorem Station.outbound_inReset (frame : List Byte) (edges : List StopEdge) (s : Station) (hr : s.ring.inReset = true) :
    s.outbound frame edges = s.stopEdges edges := by simp [Station.outbound, hr]

theorem Station.inbound_inReset (frame : List Byte) (edges : List StopEdge) (s : Station) (hr : s.ring.inReset = true) :
    s.inbound frame edges = s.stopEdges edges := by simp [Station.inbound, hr]

/-- Settles O5. -/
theorem assertedResetTakesNothing : Obligations.AssertedResetTakesNothing := by
  intro s
  refine ⟨rfl, fun hr frame edges => ⟨?_, ?_⟩, fun h => ?_⟩
  · exact State.onStation_eq (s.outbound_inReset frame edges hr)
  · exact State.onStation_eq (s.inbound_inReset frame edges hr)
  · have ha : s.ring.active = false := (Ring.active_eq_false_iff _).mpr h
    have hlimit : ∀ (j : HeadNo) due f, s.onStation (Station.onLimit j due f) = .next s := fun j due f =>
      State.onStation_eq (Station.onLimit_inactive j due f s.toStation ha)
    refine ⟨fun j spindle actual atHome present force => ⟨?_, ?_, ?_, ?_⟩, fun c hc => ?_, fun b => ?_⟩
    · exact hlimit j _ _
    · exact hlimit j _ _
    · exact hlimit j _ _
    · exact hlimit j _ _
    · obtain ⟨f, hf⟩ := requestEffect_of_isRequest c hc
      rw [exec_request c f hf s, State.onRequest_inactive f s ha]
    · exact State.onStation_eq (Station.stopLevel_inactive b _ ha)

/-! ## Frames forwarded unchanged -/

/-- R1, R2: what a part out of reset forwards as it came on LINE IN. -/
theorem Station.outbound_forwarded (frame : List Byte) (edges : List StopEdge) (s : Station) (hr : s.ring.inReset = false)
    (hf : s.ring.transparent = true ∨ classify frame = .other) :
    s.outbound frame edges = (s.sendSpur frame).stopEdges edges := by
  unfold Station.outbound
  rw [hr]
  cases ht : s.ring.transparent
  · simp [hf.resolve_left (by simp [ht])]
  · rfl

theorem Station.inbound_forwarded (frame : List Byte) (edges : List StopEdge) (s : Station) (hr : s.ring.inReset = false)
    (hf : s.ring.transparent = true ∨ classify frame = .other) :
    s.inbound frame edges = (s.sendLine frame).stopEdges edges := by
  unfold Station.inbound
  rw [hr]
  cases ht : s.ring.transparent
  · simp [hf.resolve_left (by simp [ht])]
  · rfl

/-- R9: a return whose sequence is not that of the frame in flight. -/
theorem Station.inbound_stale (frame : List Byte) (edges : List StopEdge) (f : Frame) (s : Station)
    (hr : s.ring.inReset = false) (ht : s.ring.transparent = false) (hc : classify frame = .cycle f)
    (hq : s.ring.inFlight ≠ some f.seq) :
    s.inbound frame edges = (s.countStale.sendLine frame).stopEdges edges := by
  simp [Station.inbound, hr, ht, hc, hq]

/-- Settles O7. -/
theorem framesForwardedUnchanged : Obligations.FramesForwardedUnchanged := by
  refine ⟨fun frame edges s hr => ⟨fun hf => ⟨?_, ?_⟩, fun ht f hc hq => ?_⟩, fun r => ⟨r.transparent_iff, r.active_iff⟩⟩
  · exact State.onStation_eq (Station.outbound_forwarded frame edges s.toStation hr hf)
  · exact State.onStation_eq (Station.inbound_forwarded frame edges s.toStation hr hf)
  · exact State.onStation_eq (Station.inbound_stale frame edges f s.toStation hr ht hc hq)

end Sys2Proof.Machine
end

section
/-!
The requests of the Management Agent on the fault sets and on the section map (R18 to R20, R165 to R167).
-/
namespace Sys2Proof.Machine

/-! ## The fault sets -/

/-- The attention test, made where the enabled set gains a kind, latches where the flag is armed. -/
theorem FaultUnit.testIfGained_gained (before f : FaultUnit) (hg : f.enabled &&& ~~~before.enabled ≠ 0)
    (ha : f.armed = true) : FaultUnit.testIfGained before f = { f with attention := true, armed := false } := by
  have hne : f.enabled ≠ 0 := fun h => hg (by simp [h])
  rw [FaultUnit.testIfGained, if_pos hg, FaultUnit.attentionTest, if_pos ⟨ha, hne⟩]

theorem FaultUnit.testIfGained_quiet (before f : FaultUnit)
    (h : f.enabled &&& ~~~before.enabled = 0 ∨ f.armed = false) : FaultUnit.testIfGained before f = f := by
  unfold FaultUnit.testIfGained
  split
  · next hg => simp [FaultUnit.attentionTest, h.resolve_left hg]
  · rfl

/-- A new enable set gains the kinds that are raw, in it, and were not enabled. -/
theorem FaultUnit.gained_replaceEnable (set : BitVec 15) (f : FaultUnit) :
    ({ f with enable := set } : FaultUnit).enabled &&& ~~~f.enabled = f.raw &&& set &&& ~~~f.enable := by
  ext i hi
  simp only [FaultUnit.enabled, BitVec.getElem_and, BitVec.getElem_not]
  cases f.raw[i] <;> simp

/-- A kind that is raised is gained where it is enabled and was not raw. -/
theorem FaultUnit.gained_raise (k : FaultKind) (f : FaultUnit) :
    ({ f with raw := f.raw ||| k.bit } : FaultUnit).enabled &&& ~~~f.enabled = k.bit &&& f.enable &&& ~~~f.raw := by
  ext i hi
  simp only [FaultUnit.enabled, BitVec.getElem_and, BitVec.getElem_not, BitVec.getElem_or]
  cases f.raw[i] <;> cases f.enable[i] <;> simp

theorem FaultUnit.replaceEnable_gained (set : BitVec 15) (f : FaultUnit) (hg : f.raw &&& set &&& ~~~f.enable ≠ 0)
    (ha : f.armed = true) : f.replaceEnable set = { f with enable := set, attention := true, armed := false } :=
  FaultUnit.testIfGained_gained f { f with enable := set } (by rwa [FaultUnit.gained_replaceEnable]) ha

theorem FaultUnit.replaceEnable_quiet (set : BitVec 15) (f : FaultUnit)
    (h : f.raw &&& set &&& ~~~f.enable = 0 ∨ f.armed = false) : f.replaceEnable set = { f with enable := set } :=
  FaultUnit.testIfGained_quiet f { f with enable := set } (by rwa [FaultUnit.gained_replaceEnable])

theorem FaultUnit.raise_gained (k : FaultKind) (f : FaultUnit) (hg : k.bit &&& f.enable &&& ~~~f.raw ≠ 0)
    (ha : f.armed = true) : f.raise k = { f with raw := f.raw ||| k.bit, attention := true, armed := false } :=
  FaultUnit.testIfGained_gained f { f with raw := f.raw ||| k.bit } (by rwa [FaultUnit.gained_raise]) ha

theorem FaultUnit.raise_quiet (k : FaultKind) (f : FaultUnit)
    (h : k.bit &&& f.enable &&& ~~~f.raw = 0 ∨ f.armed = false) : f.raise k = { f with raw := f.raw ||| k.bit } :=
  FaultUnit.testIfGained_quiet f { f with raw := f.raw ||| k.bit } (by rwa [FaultUnit.gained_raise])

theorem FaultUnit.rearm_quiet (f : FaultUnit) (h : f.enabled = 0) : f.rearm = { f with attention := false, armed := true } :=
  if_neg fun hf => hf.2 h

theorem FaultUnit.rearm_latched (f : FaultUnit) (h : f.enabled ≠ 0) : f.rearm = { f with attention := true, armed := false } :=
  if_pos ⟨rfl, h⟩

/-- A request on the fault sets answers DONE over the state with the sets that it leaves. -/
theorem State.onRequest_faults {f : Station → Station × Reply} {s : State} {u : FaultUnit} (ha : s.ring.active = true)
    (hf : f s.toStation = ({ s.toStation with faults := u }, .done [])) :
    s.onRequest f = .next (State.doneWith [] { s with faults := u }) :=
  State.onRequest_done ha hf

/-- Settles O51. -/
theorem faultSetsAndAttention : Obligations.FaultSetsAndAttention := by
  refine ⟨fun set s ha => ⟨?_, fun hg harm => ?_, fun hq => ?_⟩, fun s ha => ⟨fun h => ?_, fun h => ?_⟩,
    fun k f => ⟨FaultUnit.raise_gained k f, FaultUnit.raise_quiet k f, rfl⟩, rfl⟩
  · exact State.onRequest_faults ha rfl
  · exact State.onRequest_faults ha (by rw [faultEnable, FaultUnit.replaceEnable_gained _ _ hg harm])
  · exact State.onRequest_faults ha (by rw [faultEnable, FaultUnit.replaceEnable_quiet _ _ hq])
  · exact State.onRequest_faults ha (by rw [attentionRearm, FaultUnit.rearm_quiet _ h])
  · exact State.onRequest_faults ha (by rw [attentionRearm, FaultUnit.rearm_latched _ h])

/-! ## The section map -/

/-- R19, R20: the first check of both map requests. -/
theorem allOffline_eq_not (s : State) : s.toStation.allOffline = !someHeadInService s := by
  simp [Station.allOffline, someHeadInService, Four.all, allFour, Station.head, Four.get, bne, Bool.and_assoc]

theorem RoleCode.ofCode_above (b : Byte) (h : 4 < b.toNat) : RoleCode.ofCode b = Option.none := by
  unfold RoleCode.ofCode
  split
  case h_6 => rfl
  all_goals omega

/-- The role codes, and the bytes above them. -/
theorem roleCode_cases (role : Byte) :
    4 < role.toNat ∨ role = 0 ∨ role = 1 ∨ role = 2 ∨ role = 3 ∨ role = 4 := by
  by_cases h : 4 < role.toNat
  · exact .inl h
  · have : role.toNat = 0 ∨ role.toNat = 1 ∨ role.toNat = 2 ∨ role.toNat = 3 ∨ role.toNat = 4 := by omega
    simpa [← BitVec.toNat_inj] using Or.inr this

theorem four?_of_le (b : Byte) (h : b.toNat ≤ 3) : four? b = some (Fin.ofNat 4 b.toNat) := by
  have hb : b.toNat < 4 := by omega
  simp only [four?, hb, dite_true, Option.some.injEq, Fin.ext_iff, Fin.ofNat]
  omega

/-- R162: the outcome of a request whose first failing check is `d`: refused for that reason, or done with the station `u`. -/
def answered (d : Option Denial) (u s : Station) : Station × Reply :=
  match d with
  | some why => (s, .refused why)
  | none => (u, .done [])

theorem answered_cons (b : Bool) (why : Denial) (rest : List (Bool × Denial)) (u s : Station) :
    answered (firstFailing ((b, why) :: rest)) u s
      = if b = true then (s, .refused why) else answered (firstFailing rest) u s := by
  cases b <;> rfl

theorem answered_nil (u s : Station) : answered (firstFailing []) u s = (u, .done []) := rfl

/-- R162: a request that is answered by its checks is done when none fails, and refused for the first that does. -/
theorem State.onRequest_answered {f : Station → Station × Reply} {s : State} {u : Station} {d : Option Denial}
    (ha : s.ring.active = true) (hf : f s.toStation = answered d u s.toStation) :
    (d = none → s.onRequest f = .next (State.doneWith [] { s with toStation := u }))
      ∧ (∀ why, d = some why → s.onRequest f = .next (s.refusedWith why)) := by
  constructor
  · rintro rfl; exact State.onRequest_done ha hf
  · rintro why rfl; exact State.onRequest_refused ha hf

/-- R19: MAP WRITE with a role that uses an id. -/
theorem mapWriteEntry_eq (e : Nat) (id head : Byte) (role : RoleCode) (r : Role) (s : Station) (hr : roleOf role head = some r) :
    mapWriteEntry e id head role s = answered
      (firstFailing
        [(decide (id.toNat < 1 ∨ 191 < id.toNat), .badValue),
         ((Table.remove s.ring.map e).any fun x => x.2.id == id.toNat, .duplicate),
         (decide (r.room ≤ ((Table.remove s.ring.map e).filter fun x => x.2.role == r).length), .full)])
      { s with ring := { s.ring with map := Table.put s.ring.map e { id := id.toNat, role := r } } } s := by
  simp only [mapWriteEntry, hr, mapDenial, answered_cons, answered_nil, decide_eq_true_eq]
  refine ite_congr rfl (fun _ => rfl) fun _ => ?_
  cases (Table.remove s.ring.map e).any fun x => x.2.id == id.toNat
  · by_cases hroom : r.room ≤ ((Table.remove s.ring.map e).filter fun x => x.2.role == r).length
    · simp [hroom]
    · simp [hroom]
  · rfl

/-- R19: CARRIAGE and TOOL need a head of 0 to 3. -/
theorem mapWriteEntry_noHead (e : Nat) (id head : Byte) (role : RoleCode) (s : Station) (hr : roleOf role head = none) :
    mapWriteEntry e id head role s = (s, .refused .badValue) := by
  simp only [mapWriteEntry, hr]

/-- R19: MAP WRITE does what the checks of its rule say, in their order. -/
theorem mapWrite_eq (e id role head : Byte) (s : State) :
    mapWrite e id role head s.toStation = answered (firstFailing (mapWriteChecks e id role head s))
      { s.toStation with
        ring := { s.ring with
                  map := if role = 0 then Table.remove s.ring.map e.toNat
                    else Table.put s.ring.map e.toNat { id := id.toNat, role := codedRole role head } } } s.toStation := by
  simp only [mapWrite, mapWriteChecks, answered_cons, allOffline_eq_not, Bool.not_eq_false', decide_eq_true_eq]
  refine ite_congr rfl (fun _ => rfl) fun _ => ite_congr rfl (fun _ => rfl) fun _ => ?_
  obtain hrole | rfl | rfl | rfl | rfl | rfl := roleCode_cases role
  · simp [RoleCode.ofCode_above role hrole, hrole]
  · simp [RoleCode.ofCode, answered_nil]
  · by_cases hh : 3 < head.toNat
    · simp [RoleCode.ofCode, mapWriteEntry_noHead _ id head .carriage _ (by simp [roleOf, four?_above head hh]), hh]
    · simp [RoleCode.ofCode, mapWriteEntry_eq _ id head .carriage (codedRole 1 head) _
        (by simp [roleOf, four?_of_le head (by omega), codedRole]), hh, answered_cons, answered_nil]
      rfl
  · by_cases hh : 3 < head.toNat
    · simp [RoleCode.ofCode, mapWriteEntry_noHead _ id head .tool _ (by simp [roleOf, four?_above head hh]), hh]
    · simp [RoleCode.ofCode, mapWriteEntry_eq _ id head .tool (codedRole 2 head) _
        (by simp [roleOf, four?_of_le head (by omega), codedRole]), hh, answered_cons, answered_nil]
      rfl
  · simp [RoleCode.ofCode, mapWriteEntry_eq _ id head .status (codedRole 3 head) _ rfl, answered_cons, answered_nil]
    rfl
  · simp [RoleCode.ofCode, mapWriteEntry_eq _ id head .resultSlot (codedRole 4 head) _ rfl, answered_cons, answered_nil]
    rfl

/-- R20: MAP CLEAR. -/
theorem mapClear_eq (s : State) :
    mapClear s.toStation = answered (firstFailing [(someHeadInService s, .state)])
      { s.toStation with ring := { s.ring with map := [] } } s.toStation := by
  simp only [mapClear, answered_cons, answered_nil, allOffline_eq_not, Bool.not_eq_false']

/-- Settles O48. -/
theorem mapIsWrittenAndCleared : Obligations.MapIsWrittenAndCleared := by
  refine ⟨fun e id role head s ha => State.onRequest_answered ha (mapWrite_eq e id role head s), fun s ha => ?_,
    fun h => ⟨rfl, rfl, rfl, rfl⟩⟩
  obtain ⟨hdone, hrefused⟩ := State.onRequest_answered ha (mapClear_eq s)
  exact ⟨fun h => hdone (by rw [h]; rfl), fun h => hrefused .state (by rw [h]; rfl)⟩

end Sys2Proof.Machine
end

section
/-!
One section of a pass (R13, R16, R18): who takes it, and what it leaves of the pass.
-/
namespace Sys2Proof.Machine

/-! ## Owners -/

theorem Ring.roleOfId_eq_none (r : Ring) (id : Nat) (h : ∀ e ∈ r.map, e.2.id ≠ id) : r.roleOfId id = none := by
  simp only [Ring.roleOfId, Option.map_eq_none_iff, List.find?_eq_none, beq_iff_eq]
  exact h

/-- Two elements of a list whose images are distinct are equal when their images are. -/
theorem eq_of_nodup_map {α β : Type} (f : α → β) {l : List α} (h : (l.map f).Nodup) {a b : α} (ha : a ∈ l) (hb : b ∈ l)
    (hf : f a = f b) : a = b := by
  induction l with
  | nil => cases ha
  | cons c l ih =>
    obtain ⟨hnew, hrest⟩ := List.nodup_cons.mp h
    have hapart : ∀ e, e ∈ l → f e ≠ f c := fun e he hfe => hnew (hfe ▸ List.mem_map_of_mem he)
    obtain hac | hal := List.mem_cons.mp ha <;> obtain hbc | hbl := List.mem_cons.mp hb
    · exact hac.trans hbc.symm
    · exact absurd (hac ▸ hf.symm) (hapart b hbl)
    · exact absurd (hbc ▸ hf) (hapart a hal)
    · exact ih hrest hal hbl

/-- R18: in a legal map an id names at most one role. -/
theorem Ring.roleOfId_eq_some_iff (r : Ring) (id : Nat) (role : Role) (hm : mapLegal r.map) :
    r.roleOfId id = some role ↔ ∃ e ∈ r.map, e.2 = { id := id, role := role } := by
  simp only [Ring.roleOfId, Option.map_eq_some_iff]
  constructor
  · rintro ⟨e, he, rfl⟩
    have hid := List.find?_some he
    refine ⟨e, List.mem_of_find?_eq_some he, ?_⟩
    rw [← eq_of_beq hid]
  · rintro ⟨e, he, hval⟩
    have hsome : (r.map.find? fun e => e.2.id == id).isSome :=
      List.find?_isSome.mpr ⟨e, he, by simp [hval]⟩
    obtain ⟨e', hfind⟩ := Option.isSome_iff_exists.mp hsome
    have hid : e'.2.id = id := by simpa using List.find?_some hfind
    have hid : e'.2.id = e.2.id := by rw [hid, hval]
    have : e' = e := eq_of_nodup_map (fun e : Nat × MapEntry => e.2.id) hm.1 (List.mem_of_find?_eq_some hfind) he hid
    exact ⟨e', hfind, by rw [this, hval]⟩

theorem Ring.owner_management (r : Ring) (id : Nat) (h : id = 192 + r.address.toNat) : r.owner id = some .management := if_pos h

theorem Ring.owner_role (r : Ring) (id : Nat) (h : id ≠ 192 + r.address.toNat) : r.owner id = (r.roleOfId id).map .role :=
  if_neg h

/-- R13: no owner takes a section whose id went by, that nobody owns, or of another length than its owner's. -/
theorem Ring.taker_eq_none (r : Ring) (seen : List Nat) (x : Sect)
    (h : x.id ∈ seen ∨ ∀ o, r.owner x.id = some o → x.payload.length ≠ o.length) : r.taker seen x = none := by
  unfold Ring.taker
  split
  · rfl
  · next hseen =>
    split
    · rfl
    · next o ho => exact if_neg (h.resolve_left hseen o ho)

theorem Ring.taker_eq_some_iff (r : Ring) (seen : List Nat) (x : Sect) (o : Owner) :
    r.taker seen x = some o ↔ x.id ∉ seen ∧ r.owner x.id = some o ∧ x.payload.length = o.length := by
  unfold Ring.taker
  split
  · next hseen => simp [hseen]
  · next hseen =>
    split
    · next ho => simp [ho]
    · next o' ho =>
      rw [ho]
      split
      · next hlen => simp only [hseen, not_false_eq_true, true_and, Option.some.injEq]; exact ⟨fun h => ⟨h, h ▸ hlen⟩, fun h => h.1⟩
      · next hlen => simp only [hseen, not_false_eq_true, true_and, Option.some.injEq, reduceCtorEq, false_iff]
                     rintro ⟨rfl, h⟩; exact hlen h

/-! ## One section -/

/-- R13: a section that nobody takes is forwarded as it came. -/
theorem Pass.section_untaken (handle : Owner → List Byte → Station → Station × List Byte) (p : Pass) (x : Sect)
    (h : p.fall.station.ring.taker p.seen x = none) :
    p.section handle x = { p.fall with index := p.index + 1, seen := x.id :: p.seen, out := p.out ++ [x] } := by
  unfold Pass.section
  dsimp only
  rw [show p.fall.seen = p.seen from rfl, h]
  rfl

/-- R16: the roles taken after a section that its owner took. -/
def Owner.noted (o : Owner) (taken : List Role) : List Role :=
  match o with
  | .management => taken
  | .role r => r :: taken

/-- R13: a section that its owner takes. -/
theorem Pass.section_taken (handle : Owner → List Byte → Station → Station × List Byte) (p : Pass) (x : Sect) (o : Owner)
    (h : p.fall.station.ring.taker p.seen x = some o) :
    p.section handle x =
      { p.fall with
        index := p.index + 1
        seen := x.id :: p.seen
        station := (handle o x.payload p.fall.station).1
        taken := o.noted p.taken
        out := p.out ++ [{ id := x.id, payload := (handle o x.payload p.fall.station).2 }] } := by
  unfold Pass.section
  dsimp only
  rw [show p.fall.seen = p.seen from rfl, h]
  cases o <;> rfl

theorem Pass.section_gone (handle : Owner → List Byte → Station → Station × List Byte) (p : Pass) (x : Sect) :
    (p.section handle x).seen = x.id :: p.seen ∧ (p.section handle x).index = p.index + 1
      ∧ (p.section handle x).edges = p.fall.edges := by
  cases h : p.fall.station.ring.taker p.seen x with
  | none => rw [p.section_untaken handle x h]; exact ⟨rfl, rfl, rfl⟩
  | some o => rw [p.section_taken handle x o h]; exact ⟨rfl, rfl, rfl⟩

/-- Settles O12. -/
theorem sectionOutsideTheMapIsUntouched : Obligations.SectionOutsideTheMapIsUntouched := by
  refine ⟨fun handle p x h => ?_, fun handle p x o hseen h => ?_, fun handle p x => ?_, fun e es s => ?_,
    fun r id role hm => r.roleOfId_eq_some_iff id role hm, fun h => ⟨rfl, rfl, rfl, rfl⟩⟩
  · have hnone : p.fall.station.ring.taker p.seen x = none := by
      refine Ring.taker_eq_none _ _ _ (h.imp_right fun h o ho => ?_)
      obtain ⟨hid, hmap⟩ | ⟨hid, hlen⟩ | ⟨hid, hlen⟩ := h
      · rw [Ring.owner_role _ _ hid, Ring.roleOfId_eq_none _ _ hmap] at ho; cases ho
      · rw [Ring.owner_management _ _ hid] at ho; cases ho; exact hlen
      · rw [Ring.owner_role _ _ hid, Option.map_eq_some_iff] at ho
        obtain ⟨r, hr, rfl⟩ := ho
        exact hlen r hr
    rw [p.section_untaken handle x hnone]
    exact ⟨rfl, rfl, rfl⟩
  · have hsome : p.fall.station.ring.taker p.seen x = some o := by
      refine (Ring.taker_eq_some_iff _ _ _ _).mpr ⟨hseen, ?_⟩
      obtain ⟨hid, hlen, rfl⟩ | ⟨hid, r, hr, hlen, rfl⟩ := h
      · exact ⟨Ring.owner_management _ _ hid, hlen⟩
      · exact ⟨by rw [Ring.owner_role _ _ hid, hr]; rfl, hlen⟩
    rw [p.section_taken handle x o hsome]
    exact ⟨rfl, rfl, by cases o <;> rfl⟩
  · obtain ⟨hseen, hindex, hedges⟩ := p.section_gone handle x
    exact ⟨hseen, hindex, hedges, rfl⟩
  · exact ⟨rfl, { s with toStation := s.toStation.stopLevel e.asserted }, rfl, rfl⟩

end Sys2Proof.Machine
end

section
/-!
The two passes of a CYCLE frame (R6 to R9, R14 to R16, R23): what the header does, what the sections keep, and what leaves.
-/
namespace Sys2Proof.Machine

/-! ## The halt does not read the ring -/

theorem Station.modHole_withRing (i : Nat) (f : Hole → Hole) (r : Ring) (s : Station) :
    ({ s with ring := r } : Station).modHole i f = { s.modHole i f with ring := r } := by
  unfold Station.modHole
  rw [show ({ s with ring := r } : Station).hole i = s.hole i from rfl]
  cases s.hole i <;> rfl

theorem Station.releaseClaim_withRing (h : HeadNo) (r : Ring) (s : Station) :
    ({ s with ring := r } : Station).releaseClaim h = { s.releaseClaim h with ring := r } := by
  unfold Station.releaseClaim
  rw [show ({ s with ring := r } : Station).head h = s.head h from rfl]
  cases (s.head h).claim with
  | none => rfl
  | some c => simp only [Station.modHole_withRing]; rfl

theorem Station.haltHead_withRing (h : HeadNo) (r : Ring) (s : Station) :
    ({ s with ring := r } : Station).haltHead h = { s.haltHead h with ring := r } := by
  unfold Station.haltHead
  rw [show ({ s with ring := r } : Station).head h = s.head h from rfl]
  cases (s.head h).state
  case settling | armed => simp only [Station.releaseClaim_withRing]; rfl
  all_goals rfl

theorem Station.haltArrives_withRing (r : Ring) (s : Station) :
    ({ s with ring := r } : Station).haltArrives = { s.haltArrives with ring := r } := by
  simp only [Station.haltArrives, Station.eachHead]
  rw [show ({ s with ring := r } : Station).raise .halt = { s.raise .halt with ring := r } from rfl]
  simp only [Station.haltHead_withRing]

/-! ## The header -/

/-- R7: a header that brings no halt only takes the flag. -/
theorem Station.headerHalt_quiet (b : Bool) (s : Station) (h : s.ring.halt = true ∨ b = false) :
    s.headerHalt b = { s with ring := { s.ring with headerHalt := b } } := by
  refine if_neg fun ⟨hbefore, hafter⟩ => ?_
  obtain h | rfl := h
  · rw [h] at hbefore; cases hbefore
  · simp only [Ring.halt, Bool.or_eq_false_iff, Bool.false_or] at hbefore hafter
    rw [hbefore.2] at hafter; cases hafter

/-- R7, R151: a header that brings the halt. -/
theorem Station.headerHalt_brings (s : Station) (h : s.ring.halt = false) :
    s.headerHalt true = { s.haltArrives with ring := { s.ring with headerHalt := true } } := by
  rw [← Station.haltArrives_withRing]
  exact if_pos ⟨h, rfl⟩

/-- R151: a STOP change that brings the halt. -/
theorem Station.stopLevel_brings (s : Station) (ha : s.ring.active = true) (h : s.ring.halt = false) :
    s.stopLevel true = { s.haltArrives with ring := { s.ring with stopPin := true } } := by
  rw [← Station.haltArrives_withRing, Station.stopLevel, if_pos ha]
  exact if_pos ⟨h, by simp [Ring.halt]⟩

@[simp] theorem Station.headerHalt_ring (b : Bool) (s : Station) :
    (s.headerHalt b).ring = { s.ring with headerHalt := b } := by
  unfold Station.headerHalt Station.withHalt
  dsimp only
  split
  · exact Station.haltArrives_ring _
  · rfl

@[simp] theorem Station.stopLevel_ring (b : Bool) (s : Station) :
    (s.stopLevel b).ring = { s.ring with stopPin := b } := by
  unfold Station.stopLevel Station.withHalt
  dsimp only
  split
  · split
    · exact Station.haltArrives_ring _
    · rfl
  · rfl

/-- R11: what a lost frame does to the ring. -/
@[simp] theorem Station.declareLost_ring (s : Station) :
    s.declareLost.ring =
      { s.ring with lostReturns := satInc s.ring.lostReturns, losses := min (s.ring.losses + 1) 255 } := by
  unfold Station.declareLost
  dsimp only
  split
  · simp [Station.eachHead]
  · rfl

/-! ## What a pass keeps -/

/-- The blocks that neither a halt nor a section other than a management section reaches: the ring but its STOP level, the
Management Agent, the profiles, the correction and the keep-out distances. -/
def Station.sameBlocks (a s : Station) : Prop :=
  s.ring = { a.ring with stopPin := s.ring.stopPin } ∧ s.mgmt = a.mgmt ∧ s.profiles = a.profiles
    ∧ s.correction = a.correction ∧ s.keepOut = a.keepOut

/-- What every section of an outbound pass keeps of the ring: the address, the frame in flight, and what has left. -/
def Station.sameFlight (a s : Station) : Prop :=
  s.ring.address = a.ring.address ∧ s.ring.inFlight = a.ring.inFlight ∧ s.ring.spurOut = a.ring.spurOut
    ∧ s.ring.lineOut = a.ring.lineOut

/-- What every section but STATION RESET keeps too: the count of frames taken and the header-halt flag. -/
def Station.sameHeader (a s : Station) : Prop :=
  s.ring.framesTaken = a.ring.framesTaken ∧ s.ring.headerHalt = a.ring.headerHalt

theorem Station.sameBlocks_refl (a : Station) : a.sameBlocks a := ⟨rfl, rfl, rfl, rfl, rfl⟩

/-- An operation that changes neither ring nor any of the other blocks keeps the relation. -/
theorem Station.sameBlocks.of_eq {a s t : Station} (hs : a.sameBlocks s) (hr : t.ring = s.ring) (hm : t.mgmt = s.mgmt)
    (hp : t.profiles = s.profiles) (hc : t.correction = s.correction) (hk : t.keepOut = s.keepOut) : a.sameBlocks t := by
  unfold Station.sameBlocks at hs ⊢
  rwa [hr, hm, hp, hc, hk]

theorem Station.sameBlocks_haltArrives {a s : Station} (hs : a.sameBlocks s) : a.sameBlocks s.haltArrives :=
  hs.of_eq (by simp) (by simp) (by simp) (by simp) (by simp)

theorem Station.sameBlocks_stopLevel {a s : Station} (b : Bool) (hs : a.sameBlocks s) : a.sameBlocks (s.stopLevel b) := by
  have hpin : a.sameBlocks { s with ring := { s.ring with stopPin := b } } := by
    obtain ⟨hr, hrest⟩ := hs
    exact ⟨by rw [hr], hrest⟩
  unfold Station.stopLevel Station.withHalt
  dsimp only
  split
  · split
    · exact Station.sameBlocks_haltArrives hpin
    · exact hpin
  · exact hpin

theorem sameBlocks_headMoves (a : Station) : HeadMoves a.sameBlocks where
  raise _ _ hs := hs
  quiet _ _ _ _ hs := hs
  run _ _ _ _ hs := hs
  toFault _ _ _ hs := hs.of_eq (by simp) (by simp) (by simp) (by simp) (by simp)
  discard _ _ _ _ _ _ hs := hs.of_eq (by simp) (by simp) (by simp) (by simp) (by simp)
  grant _ _ _ _ _ _ _ _ hs := hs.of_eq (by simp) (by simp) (by simp) (by simp) (by simp)
  loseWindow _ _ _ hs := hs.of_eq (by simp) (by simp) (by simp) (by simp) (by simp)
  arm _ _ _ hs := hs
  engageOn _ _ _ _ _ _ _ hs := hs.of_eq (by simp) (by simp) (by simp) (by simp) (by simp)
  finishCycle _ _ _ hs := hs.of_eq (by simp) (by simp) (by simp) (by simp) (by simp)

theorem Station.stopEdges_keeps (R : Station → Prop) (hR : ∀ s b, R s → R (s.stopLevel b)) (edges : List StopEdge)
    (s : Station) (hs : R s) : R (s.stopEdges edges) := by
  induction edges generalizing s with
  | nil => exact hs
  | cons e es ih => exact ih _ (hR s e.asserted hs)

/-- What STOP changes and the owners of the sections keep, the pass keeps. -/
theorem Pass.sections_keeps (R : Station → Prop) (handle : Owner → List Byte → Station → Station × List Byte)
    (hR : ∀ s b, R s → R (s.stopLevel b)) (xs : List Sect)
    (hh : ∀ x ∈ xs, ∀ o s, s.ring.owner x.id = some o → R s → R (handle o x.payload s).1) (p : Pass) (hp : R p.station) :
    R (xs.foldl (Pass.section handle) p).station := by
  induction xs generalizing p with
  | nil => exact hp
  | cons x xs ih =>
    have hfall : R p.fall.station := Station.stopEdges_keeps R hR _ _ hp
    refine ih (fun y hy => hh y (List.mem_cons_of_mem x hy)) _ ?_
    cases ht : p.fall.station.ring.taker p.seen x with
    | none => rw [p.section_untaken handle x ht]; exact hfall
    | some o =>
      rw [p.section_taken handle x o ht]
      exact hh x List.mem_cons_self o _ ((Ring.taker_eq_some_iff _ _ _ _).mp ht).2.1 hfall

/-- R6: where every owner keeps the length of its payload, the sections leave with their ids and lengths, in their order. -/
theorem Pass.sections_shape (handle : Owner → List Byte → Station → Station × List Byte)
    (hlen : ∀ o l s, l.length = o.length → (handle o l s).2.length = l.length) (xs : List Sect) (p : Pass) :
    ((xs.foldl (Pass.section handle) p).out.map fun x => (x.id, x.payload.length))
      = (p.out.map fun x => (x.id, x.payload.length)) ++ xs.map fun x => (x.id, x.payload.length) := by
  induction xs generalizing p with
  | nil => simp
  | cons x xs ih =>
    rw [List.foldl_cons, ih]
    cases ht : p.fall.station.ring.taker p.seen x with
    | none => rw [p.section_untaken handle x ht]; simp
    | some o =>
      rw [p.section_taken handle x o ht]
      simp [hlen o x.payload p.fall.station ((Ring.taker_eq_some_iff _ _ _ _).mp ht).2.2]

/-! ## Payload lengths -/

theorem Cycle.toolOut_length (c : Cycle) (l : List Byte) (h : l.length = 20) : (c.toolOut l).length = 20 := by
  unfold Cycle.toolOut
  split
  · exact Machine.toolOut_length l _ _ _ _ h
  · exact Machine.toolOut_length l _ _ _ _ h

theorem Station.toolOutbound_length (h : HeadNo) (l : List Byte) (s : Station) (hl : l.length = 20) :
    (s.toolOutbound h l).2.length = 20 := by
  unfold Station.toolOutbound
  split
  · exact Machine.toolOut_length l _ _ _ _ hl
  · next c _ =>
    split
    · exact c.toolOut_length l hl
    · exact Machine.toolOut_length l _ _ _ _ hl

theorem outboundSection_length (o : Owner) (l : List Byte) (s : Station) (hl : l.length = o.length) :
    (outboundSection o l s).2.length = l.length := by
  cases o with
  | management => rfl
  | role r =>
    cases r with
    | carriage h => exact (carriageOut_length l _ _ hl).trans hl.symm
    | tool h => exact (s.toolOutbound_length h l hl).trans hl.symm
    | status => rfl
    | resultSlot => rfl

theorem Head.statusBytes_length (w : Head) : w.statusBytes.length = 6 := by
  unfold Head.statusBytes claimedHole
  cases w.claim <;> rfl

theorem Station.statusBytes_length (s : Station) : s.statusBytes.length = 32 := by
  simp [Station.statusBytes, Head.statusBytes_length]

theorem Station.drain_length (l : List Byte) (s : Station) (hl : l.length = 48) : (s.drain l).2.length = 48 := by
  unfold Station.drain
  split
  · exact hl
  · split
    · exact hl
    · simp

theorem returnSection_length (o : Owner) (l : List Byte) (s : Station) (hl : l.length = o.length) :
    (returnSection o l s).2.length = l.length := by
  cases o with
  | management =>
    show (s.answerBytes l).length = l.length
    unfold Station.answerBytes
    split
    · rfl
    · exact (answerOut_length l _ hl).trans hl.symm
  | role r =>
    cases r with
    | carriage h => rfl
    | tool h => rfl
    | status => exact s.statusBytes_length.trans hl.symm
    | resultSlot => exact (s.drain_length l hl).trans hl.symm

/-! ## The return pass -/

theorem Station.sameBlocks_drain {a s : Station} (l : List Byte) (hs : a.sameBlocks s) : a.sameBlocks (s.drain l).1 := by
  unfold Station.drain
  split
  · exact hs
  · split
    · exact hs
    · exact hs.of_eq (by simp) (by simp) (by simp) (by simp) (by simp)

theorem sameBlocks_returnSection (a : Station) (o : Owner) (l : List Byte) (s : Station) (hs : a.sameBlocks s) :
    a.sameBlocks (returnSection o l s).1 := by
  cases o with
  | management => exact hs
  | role r =>
    cases r with
    | carriage h => exact (sameBlocks_headMoves a).carriageReturn s h l hs
    | tool h => exact (sameBlocks_headMoves a).toolReturn s h l hs
    | status => exact hs
    | resultSlot => exact Station.sameBlocks_drain l hs

theorem Frame.checkPasses_bytes (f : Frame) : checkPasses f.bytes = true := checkPasses_withCheck _

/-- R9: a return of the frame in flight is taken. -/
theorem Station.inbound_matching (frame : List Byte) (edges : List StopEdge) (f : Frame) (s : Station)
    (ha : s.ring.active = true) (hc : classify frame = .cycle f) (hq : s.ring.inFlight = some f.seq) :
    s.inbound frame edges = s.takeReturn f edges := by
  obtain ⟨hr, ht⟩ := s.ring.active_iff.mp ha
  simp [Station.inbound, hr, ht, hc, hq]

/-- R9: the station when the sections of a taken return begin. -/
def Station.returnHeader (f : Frame) (s : Station) : Station :=
  { s with ring := { s.ring with inFlight := none, losses := 0, passSeq := f.seq } }

/-- R15: the sections of a taken return. -/
def Station.returnSections (f : Frame) (edges : List StopEdge) (s : Station) : Pass :=
  f.sections.foldl (Pass.section returnSection) (Pass.begin (s.returnHeader f) edges)

/-- R15: the station before the frame of a taken return leaves. -/
def Station.returnDone (f : Frame) (edges : List StopEdge) (s : Station) : Station :=
  Station.stopEdges (s.returnSections f edges).edges
    { (s.returnSections f edges).station with mgmt := { (s.returnSections f edges).station.mgmt with answer := none } }

theorem Station.takeReturn_eq (f : Frame) (edges : List StopEdge) (s : Station) :
    s.takeReturn f edges
      = (s.returnDone f edges).sendLine ({ f with sections := (s.returnSections f edges).out } : Frame).bytes := rfl

/-- R15: what a taken return leaves alone: all but the STOP level, the hole table, the heads, the results and the faults, beside
the record that it empties and the answer. -/
theorem Station.returnDone_sameBlocks (f : Frame) (edges : List StopEdge) (s : Station) :
    ({ s.returnHeader f with mgmt := { s.mgmt with answer := none } } : Station).sameBlocks (s.returnDone f edges) := by
  have hsections : (s.returnHeader f).sameBlocks (s.returnSections f edges).station :=
    Pass.sections_keeps _ _ (fun _ b => Station.sameBlocks_stopLevel b) _
      (fun x _ o u _ => sameBlocks_returnSection _ o x.payload u) _ (Station.sameBlocks_refl _)
  obtain ⟨hring, hmgmt, hrest⟩ := hsections
  refine Station.stopEdges_keeps _ (fun _ b => Station.sameBlocks_stopLevel b) _ _ ⟨hring, ?_, hrest⟩
  simp only [hmgmt]
  rfl

/-- Settles O11. -/
theorem matchingReturnIsTaken : Obligations.MatchingReturnIsTaken := by
  refine ⟨fun frame edges f s ha hc hq => ?_, fun h payload s => ⟨rfl, rfl⟩⟩
  obtain ⟨hring, hmgmt, hprof, hcor, hkeep⟩ := s.toStation.returnDone_sameBlocks f edges
  refine ⟨s.toStation.returnDone f edges, s.toStation.returnSections f edges,
    { s with toStation := s.toStation.takeReturn f edges },
    State.onStation_eq (Station.inbound_matching frame edges f s.toStation ha hc hq), rfl, rfl, rfl, ?_,
    Frame.checkPasses_bytes _, Pass.sections_shape _ returnSection_length _ _, ?_⟩
  · exact (congrArg (fun r : Ring => r.lineOut ++ _) hring :)
  · exact ⟨(congrArg Ring.inFlight hring :), (congrArg Ring.losses hring :), hmgmt, (congrArg Ring.spurOut hring :),
      (congrArg Ring.headerHalt hring :), (congrArg Ring.map hring :), (congrArg Ring.address hring :),
      (congrArg Ring.lossLimit hring :), (congrArg Ring.framesTaken hring :), (congrArg Ring.damagedFrames hring :),
      (congrArg Ring.lostReturns hring :), (congrArg Ring.staleReturns hring :), hprof, hcor, hkeep, rfl⟩

end Sys2Proof.Machine
end

section
/-!
The outbound pass of a CYCLE frame (R6 to R8, R14, R16, R23).
-/
namespace Sys2Proof.Machine

/-! ## What a request does to the ring -/

theorem mapWrite_ring (e id role head : Byte) (s : Station) :
    ∃ m, (mapWrite e id role head s).1.ring = { s.ring with map := m } := by
  have h := mapWrite_eq e id role head { toStation := s, pending := [] }
  rw [h]
  cases firstFailing (mapWriteChecks e id role head { toStation := s, pending := [] }) with
  | none => exact ⟨_, rfl⟩
  | some why => exact ⟨_, rfl⟩

theorem mapClear_ring (s : Station) : ∃ m, (mapClear s).1.ring = { s.ring with map := m } := by
  unfold mapClear
  split
  · exact ⟨_, rfl⟩
  · exact ⟨_, rfl⟩

theorem Station.sameFlight_of_ring {a s : Station} (h : s.ring = a.ring) : a.sameFlight s := by
  unfold Station.sameFlight; rw [h]; exact ⟨rfl, rfl, rfl, rfl⟩

theorem Station.sameHeader_of_ring {a s : Station} (h : s.ring = a.ring) : a.sameHeader s := by
  unfold Station.sameHeader; rw [h]; exact ⟨rfl, rfl⟩

/-- R169: every request, STATION RESET too, keeps the address, the frame in flight and the frames that have left. -/
theorem requestEffect_sameFlight (i : Instr) (f : Station → Station × Reply) (hf : requestEffect i = some f) (s : Station) :
    s.sameFlight (f s).1 := by
  cases i <;> simp only [requestEffect, Option.some.injEq, reduceCtorEq] at hf <;> subst hf
  case mapWrite e id role head =>
    obtain ⟨m, hm⟩ := mapWrite_ring e id role head s
    unfold Station.sameFlight; rw [hm]; exact ⟨rfl, rfl, rfl, rfl⟩
  case mapClear =>
    obtain ⟨m, hm⟩ := mapClear_ring s
    unfold Station.sameFlight; rw [hm]; exact ⟨rfl, rfl, rfl, rfl⟩
  case stationConfig => simp [Station.sameFlight, stationConfig]
  case stationReset => simp [Station.sameFlight, Station.stationReset, Ring.initial]
  all_goals exact Station.sameFlight_of_ring (by simp)

/-- R23, R7: no request but STATION RESET touches the count of frames taken or the header-halt flag. -/
theorem requestEffect_sameHeader (i : Instr) (f : Station → Station × Reply) (hf : requestEffect i = some f)
    (hi : i ≠ .stationReset) (s : Station) : s.sameHeader (f s).1 := by
  cases i <;> simp only [requestEffect, Option.some.injEq, reduceCtorEq] at hf <;> subst hf
  case mapWrite e id role head =>
    obtain ⟨m, hm⟩ := mapWrite_ring e id role head s
    unfold Station.sameHeader; rw [hm]; exact ⟨rfl, rfl⟩
  case mapClear =>
    obtain ⟨m, hm⟩ := mapClear_ring s
    unfold Station.sameHeader; rw [hm]; exact ⟨rfl, rfl⟩
  case stationConfig => simp [Station.sameHeader, stationConfig]
  case stationReset => exact absurd rfl hi
  all_goals exact Station.sameHeader_of_ring (by simp)

/-- What the effect of the request in a payload makes of the station, the management section does, but for the answer. -/
theorem Station.takeManagement_cases (l : List Byte) (s : Station) :
    (s.takeManagement l).ring = s.ring
      ∨ ∃ i f, decodeRequest l = .request i ∧ requestEffect i = some f ∧ (s.takeManagement l).ring = (f s).1.ring := by
  unfold Station.takeManagement
  split
  · exact .inl rfl
  · exact .inl rfl
  · next i hi =>
    split
    · next f hf => exact .inr ⟨i, f, hi, hf, rfl⟩
    · exact .inl rfl

theorem Station.takeManagement_sameFlight (l : List Byte) (s : Station) : s.sameFlight (s.takeManagement l) := by
  obtain h | ⟨i, f, _, hf, h⟩ := s.takeManagement_cases l
  · exact Station.sameFlight_of_ring h
  · unfold Station.sameFlight; rw [h]; exact requestEffect_sameFlight i f hf s

theorem Station.takeManagement_sameHeader (l : List Byte) (s : Station) (hl : decodeRequest l ≠ .request .stationReset) :
    s.sameHeader (s.takeManagement l) := by
  obtain h | ⟨i, f, hi, hf, h⟩ := s.takeManagement_cases l
  · exact Station.sameHeader_of_ring h
  · unfold Station.sameHeader; rw [h]
    exact requestEffect_sameHeader i f hf (by rintro rfl; exact hl hi) s

/-! ## What the sections of an outbound pass keep -/

theorem Station.sameFlight.trans {a b c : Station} (hab : a.sameFlight b) (hbc : b.sameFlight c) : a.sameFlight c := by
  obtain ⟨h1, h2, h3, h4⟩ := hab
  obtain ⟨k1, k2, k3, k4⟩ := hbc
  exact ⟨k1.trans h1, k2.trans h2, k3.trans h3, k4.trans h4⟩

theorem Station.sameHeader.trans {a b c : Station} (hab : a.sameHeader b) (hbc : b.sameHeader c) : a.sameHeader c :=
  ⟨hbc.1.trans hab.1, hbc.2.trans hab.2⟩

theorem Station.stopLevel_sameFlight (b : Bool) (s : Station) : s.sameFlight (s.stopLevel b) := by simp [Station.sameFlight]

theorem Station.stopLevel_sameHeader (b : Bool) (s : Station) : s.sameHeader (s.stopLevel b) := by simp [Station.sameHeader]

/-- A section that is not this station's management section leaves the ring and the other blocks alone. -/
theorem outboundSection_sameBlocks (a : Station) (o : Owner) (ho : o ≠ .management) (l : List Byte) (s : Station)
    (hs : a.sameBlocks s) : a.sameBlocks (outboundSection o l s).1 := by
  cases o with
  | management => exact absurd rfl ho
  | role r =>
    cases r with
    | carriage h => exact (sameBlocks_headMoves a).carriageOutbound s h l hs
    | tool h => exact (sameBlocks_headMoves a).toolOutbound s h l hs
    | status => exact hs
    | resultSlot => exact hs

theorem Station.toolOutbound_ring (h : HeadNo) (l : List Byte) (s : Station) : (s.toolOutbound h l).1.ring = s.ring := by
  unfold Station.toolOutbound
  split
  · rfl
  · split <;> rfl

theorem outboundSection_ring (o : Owner) (ho : o ≠ .management) (l : List Byte) (s : Station) :
    (outboundSection o l s).1.ring = s.ring := by
  cases o with
  | management => exact absurd rfl ho
  | role r =>
    cases r with
    | carriage h => rfl
    | tool h => exact s.toolOutbound_ring h l
    | status => rfl
    | resultSlot => rfl

theorem outboundSection_sameFlight (o : Owner) (l : List Byte) (s : Station) : s.sameFlight (outboundSection o l s).1 := by
  by_cases ho : o = .management
  · subst ho; exact s.takeManagement_sameFlight l
  · exact Station.sameFlight_of_ring (outboundSection_ring o ho l s)

theorem outboundSection_sameHeader (o : Owner) (l : List Byte) (s : Station)
    (hl : o = .management → decodeRequest l ≠ .request .stationReset) : s.sameHeader (outboundSection o l s).1 := by
  by_cases ho : o = .management
  · subst ho; exact s.takeManagement_sameHeader l (hl rfl)
  · exact Station.sameHeader_of_ring (outboundSection_ring o ho l s)

theorem Ring.id_of_owner_management (r : Ring) (id : Nat) (h : r.owner id = some .management) : id = 192 + r.address.toNat := by
  by_cases hid : id = 192 + r.address.toNat
  · exact hid
  · rw [r.owner_role id hid, Option.map_eq_some_iff] at h
    obtain ⟨_, _, h⟩ := h
    cases h

/-! ## The pass in its parts -/

/-- R14: the sections of a taken outbound frame. -/
def Station.outboundSections (f : Frame) (edges : List StopEdge) (s : Station) : Pass :=
  f.sections.foldl (Pass.section outboundSection) (Pass.begin (s.outboundHeader f) edges)

/-- R16: the station after the missing-section tests. -/
def Station.outboundTested (f : Frame) (edges : List StopEdge) (s : Station) : Station :=
  (s.outboundSections f edges).station.eachHead (Station.missingTest (s.outboundSections f edges).taken)

/-- The station before a taken outbound frame leaves. -/
def Station.outboundDone (f : Frame) (edges : List StopEdge) (s : Station) : Station :=
  (s.outboundTested f edges).stopEdges (s.outboundSections f edges).edges

theorem Station.takeOutbound_eq (f : Frame) (edges : List StopEdge) (s : Station) :
    s.takeOutbound f edges
      = (s.outboundDone f edges).sendSpur ({ f with sections := (s.outboundSections f edges).out } : Frame).bytes := rfl

@[simp] theorem Station.missingTest_ring (taken : List Role) (h : HeadNo) (s : Station) :
    (s.missingTest taken h).ring = s.ring := by
  unfold Station.missingTest
  split <;> simp

/-- What STOP changes, sections and faults keep, the whole pass keeps after its header. -/
theorem Station.outboundDone_keeps (R : Station → Prop) (hR : ∀ s b, R s → R (s.stopLevel b))
    (hF : ∀ s taken h, R s → R (s.missingTest taken h)) (f : Frame) (edges : List StopEdge) (s : Station)
    (hh : ∀ x ∈ f.sections, ∀ o u, u.ring.owner x.id = some o → R u → R (outboundSection o x.payload u).1)
    (hs : R (s.outboundHeader f)) : R (s.outboundDone f edges) := by
  refine Station.stopEdges_keeps R hR _ _ (Kept.eachHead _ (fun h u hu => hF u _ h hu) _ ?_)
  exact Pass.sections_keeps R _ hR _ hh _ hs

theorem Station.outboundDone_sameFlight (f : Frame) (edges : List StopEdge) (s : Station) :
    (s.outboundHeader f).sameFlight (s.outboundDone f edges) :=
  Station.outboundDone_keeps _ (fun u b hu => hu.trans (u.stopLevel_sameFlight b))
    (fun u taken h hu => hu.trans (Station.sameFlight_of_ring (u.missingTest_ring taken h))) f edges s
    (fun x _ o u _ hu => hu.trans (outboundSection_sameFlight o x.payload u)) (Station.sameFlight_of_ring rfl)

/-- R6, R7: without a STATION RESET in it, a frame leaves the count and the HALT flag as its header made them. -/
theorem Station.outboundDone_sameHeader (f : Frame) (edges : List StopEdge) (s : Station)
    (hreset : ∀ x ∈ f.sections, x.id = 192 + (s.outboundHeader f).ring.address.toNat →
      decodeRequest x.payload ≠ .request .stationReset) :
    (s.outboundHeader f).sameHeader (s.outboundDone f edges) := by
  refine (Station.outboundDone_keeps
    (fun u => (s.outboundHeader f).sameFlight u ∧ (s.outboundHeader f).sameHeader u)
    (fun u b hu => ⟨hu.1.trans (u.stopLevel_sameFlight b), hu.2.trans (u.stopLevel_sameHeader b)⟩)
    (fun u taken h hu => ⟨hu.1.trans (Station.sameFlight_of_ring (u.missingTest_ring taken h)),
      hu.2.trans (Station.sameHeader_of_ring (u.missingTest_ring taken h))⟩) f edges s ?_
    ⟨Station.sameFlight_of_ring rfl, Station.sameHeader_of_ring rfl⟩).2
  rintro x hx o u ho ⟨hflight, hheader⟩
  refine ⟨hflight.trans (outboundSection_sameFlight o x.payload u),
    hheader.trans (outboundSection_sameHeader o x.payload u ?_)⟩
  rintro rfl
  refine hreset x hx ?_
  rw [← hflight.1]
  exact Ring.id_of_owner_management _ _ ho

theorem Station.missingTest_sameBlocks (a : Station) (taken : List Role) (h : HeadNo) (s : Station) (hs : a.sameBlocks s) :
    a.sameBlocks (s.missingTest taken h) := by
  unfold Station.missingTest
  split
  · exact hs.of_eq (by simp) (by simp) (by simp) (by simp) (by simp)
  · exact hs

/-- R14: a frame without a section of this station's management leaves the other blocks as its header left them. -/
theorem Station.outboundDone_sameBlocks (f : Frame) (edges : List StopEdge) (s : Station)
    (hid : ∀ x ∈ f.sections, x.id ≠ 192 + (s.outboundHeader f).ring.address.toNat) :
    (s.outboundHeader f).sameBlocks (s.outboundDone f edges) := by
  refine Station.outboundDone_keeps _ (fun _ b => Station.sameBlocks_stopLevel b)
    (fun u taken h hu => Station.missingTest_sameBlocks _ taken h u hu) f edges s ?_ (Station.sameBlocks_refl _)
  intro x hx o u ho hu
  refine outboundSection_sameBlocks _ o ?_ _ _ hu
  rintro rfl
  have haddr : u.ring.address = (s.outboundHeader f).ring.address := by rw [hu.1]
  exact hid x hx (haddr ▸ Ring.id_of_owner_management _ _ ho)

/-! ## The header -/

/-- R7, R23: the frame is counted, its sequence is the pass's, and its HALT flag is taken. -/
def Station.countedHeader (f : Frame) (s : Station) : Station :=
  Station.headerHalt f.halt { s with ring := { s.ring with framesTaken := satInc s.ring.framesTaken, passSeq := f.seq } }

/-- R8: the frame in flight, if there is one, is lost. -/
def Station.lostByHeader (s : Station) : Station := if s.ring.inFlight = none then s else s.declareLost

theorem Station.outboundHeader_eq (f : Frame) (s : Station) :
    s.outboundHeader f =
      { (s.countedHeader f).lostByHeader with
        ring := { (s.countedHeader f).lostByHeader.ring with inFlight := some f.seq }
        mgmt := { (s.countedHeader f).lostByHeader.mgmt with answer := none }
        heads := (s.countedHeader f).lostByHeader.heads.map fun w =>
          { w with
            gate := { w.gate with sent := none }
            engine := w.engine.map fun c => { c with sent := none, begun := true, stopped := false } } } := by
  show (((s.countedHeader f)).launch f.seq).beginOutbound = _
  unfold Station.launch Station.lostByHeader
  cases (s.countedHeader f).ring.inFlight
  · simp only [if_true]; rfl
  · simp only [reduceCtorEq, if_false]; rfl

theorem Station.countedHeader_ring (f : Frame) (s : Station) :
    (s.countedHeader f).ring =
      { s.ring with framesTaken := satInc s.ring.framesTaken, passSeq := f.seq, headerHalt := f.halt } :=
  Station.headerHalt_ring _ _

@[simp] theorem Station.headerHalt_mgmt (b : Bool) (s : Station) : (s.headerHalt b).mgmt = s.mgmt := by
  unfold Station.headerHalt Station.withHalt; dsimp only; split <;> simp

@[simp] theorem Station.headerHalt_profiles (b : Bool) (s : Station) : (s.headerHalt b).profiles = s.profiles := by
  unfold Station.headerHalt Station.withHalt; dsimp only; split <;> simp

@[simp] theorem Station.headerHalt_correction (b : Bool) (s : Station) : (s.headerHalt b).correction = s.correction := by
  unfold Station.headerHalt Station.withHalt; dsimp only; split <;> simp

@[simp] theorem Station.headerHalt_keepOut (b : Bool) (s : Station) : (s.headerHalt b).keepOut = s.keepOut := by
  unfold Station.headerHalt Station.withHalt; dsimp only; split <;> simp

/-- R11, R12: what a lost frame leaves alone beside the heads, holes, results and faults. -/
theorem Station.declareLost_blocks (s : Station) :
    s.declareLost.mgmt = { s.mgmt with answer := none } ∧ s.declareLost.profiles = s.profiles
      ∧ s.declareLost.correction = s.correction ∧ s.declareLost.keepOut = s.keepOut := by
  unfold Station.declareLost
  dsimp only
  split
  · simp [Station.eachHead]
  · exact ⟨rfl, rfl, rfl, rfl⟩

/-- What the header of a taken outbound frame makes of the ring. -/
theorem Station.outboundHeader_ring (f : Frame) (s : Station) :
    (s.outboundHeader f).ring =
      { s.ring with
        framesTaken := satInc s.ring.framesTaken, passSeq := f.seq, headerHalt := f.halt, inFlight := some f.seq
        lostReturns := if s.ring.inFlight = none then s.ring.lostReturns else satInc s.ring.lostReturns
        losses := if s.ring.inFlight = none then s.ring.losses else min (s.ring.losses + 1) 255 } := by
  rw [Station.outboundHeader_eq]
  unfold Station.lostByHeader
  rw [Station.countedHeader_ring]
  cases s.ring.inFlight
  · simp [Station.countedHeader_ring]
  · simp [Station.countedHeader_ring]

theorem Station.outboundHeader_blocks (f : Frame) (s : Station) :
    (s.outboundHeader f).mgmt = { s.mgmt with answer := none } ∧ (s.outboundHeader f).profiles = s.profiles
      ∧ (s.outboundHeader f).correction = s.correction ∧ (s.outboundHeader f).keepOut = s.keepOut := by
  obtain ⟨hm, hp, hc, hk⟩ := (s.countedHeader f).declareLost_blocks
  rw [Station.outboundHeader_eq]
  unfold Station.lostByHeader
  split
  · simp [Station.countedHeader]
  · simp only [hm, hp, hc, hk]; simp [Station.countedHeader]

/-- R16: the missing-section test of one head. -/
theorem Station.missingTest_missing (taken : List Role) (h : HeadNo) (s : Station)
    (hs : (s.head h).state.inService = true) (ht : Role.carriage h ∉ taken ∨ Role.tool h ∉ taken) :
    s.missingTest taken h
      = Station.toFault h .sectionMissing { s with faults := s.faults.raise .sectionMissing } := if_pos ⟨hs, ht⟩

theorem Station.missingTest_present (taken : List Role) (h : HeadNo) (s : Station)
    (hs : (s.head h).state.inService = false ∨ (Role.carriage h ∈ taken ∧ Role.tool h ∈ taken)) :
    s.missingTest taken h = s := by
  refine if_neg fun ⟨hin, ht⟩ => ?_
  obtain hs | ⟨hc, htool⟩ := hs
  · rw [hs] at hin; cases hin
  · exact ht.elim (absurd hc) (absurd htool)

theorem Station.outbound_cycle (frame : List Byte) (edges : List StopEdge) (f : Frame) (s : Station)
    (ha : s.ring.active = true) (hc : classify frame = .cycle f) : s.outbound frame edges = s.takeOutbound f edges := by
  obtain ⟨hr, ht⟩ := s.ring.active_iff.mp ha
  simp [Station.outbound, hr, ht, hc]

/-- R7: a header that brings the halt does to the blocks what a STOP change that brings it does. -/
theorem Station.countedHeader_brings (f : Frame) (s : Station) (ha : s.ring.active = true) (hh : s.ring.halt = false)
    (hf : f.halt = true) :
    s.countedHeader f =
      { s.stopLevel true with
        ring := { s.ring with framesTaken := satInc s.ring.framesTaken, passSeq := f.seq, headerHalt := f.halt } } := by
  unfold Station.countedHeader
  rw [hf, Station.stopLevel_brings _ ha hh, Station.headerHalt_brings _ (by exact hh), Station.haltArrives_withRing]

/-- Settles O10. -/
theorem outboundCycleFrameIsTaken : Obligations.OutboundCycleFrameIsTaken := by
  refine ⟨fun frame edges f s ha hc => ?_, fun h payload s => ⟨rfl, rfl, rfl, rfl⟩, fun taken h s =>
    ⟨s.missingTest_missing taken h, s.missingTest_present taken h⟩⟩
  have hring := s.toStation.outboundHeader_ring f
  obtain ⟨haddr, hflight, hspur, hline⟩ := s.toStation.outboundDone_sameFlight f edges
  rw [hring] at haddr hflight hspur hline
  have hheaderAddr : (s.toStation.outboundHeader f).ring.address = s.ring.address := by rw [hring]
  refine ⟨s.toStation.countedHeader f, (s.toStation.countedHeader f).lostByHeader, s.toStation.outboundHeader f,
    s.toStation.outboundTested f edges, s.toStation.outboundSections f edges,
    { s with toStation := s.toStation.takeOutbound f edges },
    State.onStation_eq (Station.outbound_cycle frame edges f s.toStation ha hc),
    fun h => Station.headerHalt_quiet _ _ h, fun hh hf => ⟨_, rfl, Station.countedHeader_brings f s.toStation ha hh hf⟩,
    ?_, Station.outboundHeader_eq f s.toStation, rfl, rfl, rfl, ?_, Frame.checkPasses_bytes _,
    Pass.sections_shape _ outboundSection_length _ _, hline, haddr, rfl, hflight, fun hreset => ?_, fun hid => ?_⟩
  · rw [Station.lostByHeader, Station.countedHeader_ring]
  · exact (congrArg (· ++ _) hspur :)
  · obtain ⟨hframes, hhalt⟩ := s.toStation.outboundDone_sameHeader f edges (by rwa [hheaderAddr])
    rw [hring] at hframes hhalt
    exact ⟨hframes, hhalt⟩
  · obtain ⟨hdone, hmgmt, hprof, hcor, hkeep⟩ := s.toStation.outboundDone_sameBlocks f edges (by rwa [hheaderAddr])
    obtain ⟨hm, hp, hc, hk⟩ := s.toStation.outboundHeader_blocks f
    rw [hring] at hdone
    refine ⟨(congrArg Ring.map hdone :), (congrArg Ring.damagedFrames hdone :), (congrArg Ring.staleReturns hdone :),
      (congrArg Mgmt.refused (hmgmt.trans hm) :), (congrArg Mgmt.answer (hmgmt.trans hm) :), hprof.trans hp, hcor.trans hc,
      hkeep.trans hk, fun hnone => ⟨?_, ?_⟩, fun q hq => ⟨?_, ?_⟩⟩
    · exact (congrArg Ring.lostReturns hdone :).trans (if_pos hnone)
    · exact (congrArg Ring.losses hdone :).trans (if_pos hnone)
    · exact (congrArg Ring.lostReturns hdone :).trans (if_neg (by simp [hq]))
    · exact (congrArg Ring.losses hdone :).trans (if_neg (by simp [hq]))

end Sys2Proof.Machine
end

section
/-!
A cause that reaches a head, and a lost frame (R11, R12, R22, R35, R63, R73, R86).
-/
namespace Sys2Proof.Machine

/-! ## Holes and claims -/

theorem Station.modHole_table (i : Nat) (f : Hole → Hole) (s : Station) :
    (s.modHole i f).table = { s.table with holes := (s.modHole i f).table.holes } := by
  unfold Station.modHole
  split <;> rfl

theorem Station.releaseClaim_table (h : HeadNo) (s : Station) :
    (s.releaseClaim h).table = { s.table with holes := (s.releaseClaim h).table.holes } := by
  unfold Station.releaseClaim
  split
  · rfl
  · exact Station.modHole_table _ _ _

theorem Station.releaseClaim_none (h : HeadNo) (s : Station) (hc : (s.head h).claim = none) : s.releaseClaim h = s := by
  simp [Station.releaseClaim, hc]

/-! ## The end of a cycle -/

/-- R35, R37: the hole records after a cycle end, before the tests that follow it. -/
def Station.endedHoles (h : HeadNo) (c : Cycle) (o : CycleOutcome) (why : Reason) (s : Station) : Table Hole :=
  ((s.releaseClaim h).modHole c.hole (Hole.cycleEnd c o why)).table.holes

/-- The station when a cycle's record has joined the queue. -/
def Station.endJoined (h : HeadNo) (c : Cycle) (o : CycleOutcome) (why : Reason) (s : Station) : Station :=
  (((s.releaseClaim h).modHole c.hole (Hole.cycleEnd c o why)).modHead h (Head.cycleEnded c)).join (s.cycleRecord h c o why)

theorem Station.endJoined_table (h : HeadNo) (c : Cycle) (o : CycleOutcome) (why : Reason) (s : Station) :
    (s.endJoined h c o why).table = { s.table with holes := s.endedHoles h c o why } := by
  rw [Station.endJoined, Station.join_table, Station.modHead_table, Station.modHole_table, Station.releaseClaim_table]
  rfl

theorem Station.concludeCycle_eq (h : HeadNo) (c : Cycle) (o : CycleOutcome) (why : Reason) (s : Station) :
    s.concludeCycle h c o why = ((s.endJoined h c o why).raiseAll o.kinds).completenessIfWorking := rfl

/-- R78, R44: the table after a cycle end. -/
theorem Station.concludeCycle_table (h : HeadNo) (c : Cycle) (o : CycleOutcome) (why : Reason) (s : Station) :
    (s.concludeCycle h c o why).table =
      { s.table with
        holes := s.endedHoles h c o why
        complete := s.table.complete
          || (s.table.jig == .working && (s.endedHoles h c o why).all fun e => e.2.terminal) } := by
  rw [Station.concludeCycle_eq, (Station.completenessIfWorking_spec _ _ rfl).1, Station.raiseAll_table,
    Station.endJoined_table]

theorem Station.raiseAll_faults (ks : List FaultKind) (s : Station) :
    (s.raiseAll ks).faults = ks.foldl (fun f k => f.raise k) s.faults := by
  induction ks generalizing s with
  | nil => rfl
  | cons k ks ih => exact ih (s.raise k)

/-- R155, R158, R78, R44: the kinds that a cycle end raises, in their order. -/
theorem Station.concludeCycle_faults (h : HeadNo) (c : Cycle) (o : CycleOutcome) (why : Reason) (s : Station)
    (joined told : FaultUnit)
    (hj : joined = (if s.results.hold = false ∧ s.results.upper ≤ s.results.records.length + 1
      then s.faults.raise .resultHold else s.faults))
    (ht : told = o.kinds.foldl (fun f k => f.raise k) joined) :
    (s.concludeCycle h c o why).faults =
      if s.table.jig = .working ∧ s.table.complete = false ∧ ((s.endedHoles h c o why).all fun e => e.2.terminal) = true
      then told.raise .jigComplete else told := by
  subst hj ht
  obtain ⟨_, _, _, hf, _⟩ := Station.join_spec
    (((s.releaseClaim h).modHole c.hole (Hole.cycleEnd c o why)).modHead h (Head.cycleEnded c))
    (s.cycleRecord h c o why) _ rfl
  rw [Station.concludeCycle_eq, (Station.completenessIfWorking_spec _ _ rfl).2.1, Station.raiseAll_table,
    Station.endJoined_table, Station.raiseAll_faults, Station.endJoined, hf]
  simp

/-- R155, R158: the result queue after a cycle end. -/
theorem Station.concludeCycle_results (h : HeadNo) (c : Cycle) (o : CycleOutcome) (why : Reason) (s : Station) (n : Nat)
    (hn : n = s.results.records.length + 1) :
    (s.concludeCycle h c o why).results.upper = s.results.upper
      ∧ (s.concludeCycle h c o why).results.lower = s.results.lower
      ∧ (s.concludeCycle h c o why).results.hold
        = (if s.results.hold then decide (s.results.lower < n) else decide (s.results.upper ≤ n)) := by
  subst hn
  obtain ⟨hu, hl, hh, _, _⟩ := Station.join_spec
    (((s.releaseClaim h).modHole c.hole (Hole.cycleEnd c o why)).modHead h (Head.cycleEnded c))
    (s.cycleRecord h c o why) _ rfl
  rw [Station.concludeCycle_eq, (Station.completenessIfWorking_spec _ _ rfl).2.2, Station.raiseAll_results,
    Station.endJoined, hu, hl, hh]
  simp

/-- R35, R37: one record after a cycle end. -/
theorem Station.hole_concludeCycle_eq (h : HeadNo) (c : Cycle) (o : CycleOutcome) (why : Reason) (s : Station) (j : Nat) :
    (s.concludeCycle h c o why).hole j =
      if j = c.hole then ((s.releaseClaim h).hole j).map (Hole.cycleEnd c o why) else (s.releaseClaim h).hole j := by
  simp only [Station.concludeCycle, Station.hole_completenessIfWorking, Station.hole_raiseAll, Station.hole_join,
    Station.hole_modHead, Station.hole_modHole]
  split
  · next e => rw [e]
  · rfl

/-- R37, R38: a cycle that fails leaves its hole REJECTED. -/
theorem Hole.cycleEnd_failed (c : Cycle) (why : Reason) (v : Hole) :
    Hole.cycleEnd c .failed why v = { v with state := .rejected, claimant := none, last := some (.failed, why) } := by
  unfold Hole.cycleEnd
  cases c.work <;> rfl

theorem Station.hole_failed_same (h : HeadNo) (c : Cycle) (why : Reason) (s : Station) (v : Hole)
    (hv : s.hole c.hole = some v) :
    (s.concludeCycle h c .failed why).hole c.hole
      = some { v with state := .rejected, claimant := none, last := some (.failed, why) } := by
  rw [Station.hole_concludeCycle_eq, if_pos rfl, Station.hole_releaseClaim, hv]
  split <;> simp [Hole.cycleEnd_failed]

theorem Station.hole_concludeCycle_other (h : HeadNo) (c : Cycle) (o : CycleOutcome) (why : Reason) (s : Station) (i : Nat)
    (hi : i ≠ c.hole) (hc : ∀ a, (s.head h).claim = some a → a.hole ≠ i) :
    (s.concludeCycle h c o why).hole i = s.hole i := by
  rw [Station.hole_concludeCycle_eq, if_neg hi, Station.hole_releaseClaim, if_neg]
  intro h
  obtain ⟨a, ha, hai⟩ := Option.map_eq_some_iff.mp h
  exact hc a ha hai

/-! ## FAULT -/

/-- R63: what FAULT writes into the head once its cycle has ended and its claim is gone. -/
def Head.toFault (cause : Reason) (v : Head) : Head :=
  { v with settle := 0, gate := v.gate.fault, state := .fault, faultCause := some cause }

theorem Station.toFault_outOfService (h : HeadNo) (cause : Reason) (s : Station) (hs : (s.head h).state.inService = false) :
    s.toFault h cause = s := if_neg (by simp [hs])

/-- R63: a cause reaches a head in service without a cycle. -/
theorem Station.toFault_idle (h : HeadNo) (cause : Reason) (s : Station) (hs : (s.head h).state.inService = true)
    (he : (s.head h).engine = none) :
    s.toFault h cause = ((s.releaseClaim h).modHead h (Head.toFault cause)).raise .headFault := by
  have hf : s.failCycle h cause = s := by simp [Station.failCycle, he]
  rw [Station.toFault, if_pos hs, hf]
  rfl

/-- R63: a cause reaches a head in service with a cycle in flight. -/
theorem Station.toFault_cycle (h : HeadNo) (cause : Reason) (s : Station) (c : Cycle)
    (hs : (s.head h).state.inService = true) (he : (s.head h).engine = some c) :
    s.toFault h cause = ((s.concludeCycle h c .failed cause).modHead h (Head.toFault cause)).raise .headFault := by
  have hf : s.failCycle h cause = s.concludeCycle h c .failed cause := by simp [Station.failCycle, he]
  have hclaim : ((s.concludeCycle h c .failed cause).head h).claim = none := by
    rw [Station.head_concludeCycle, if_pos rfl]; rfl
  rw [Station.toFault, if_pos hs, hf, Station.releaseClaim_none h _ hclaim]
  rfl

theorem Head.faulted_idle (cause : Reason) (w : Head) (he : w.engine = none) :
    w.faulted cause =
      { w with claim := none, settle := 0, gate := w.gate.fault, state := .fault, faultCause := some cause } := by
  simp [Head.faulted, Head.cutOff, he]

theorem Head.faulted_cycle (cause : Reason) (w : Head) (c : Cycle) (he : w.engine = some c) :
    w.faulted cause =
      { w with
        claim := none, settle := 0, gate := w.gate.fault, state := .fault, faultCause := some cause
        queue := w.queue.erase c.hole, engine := none, bank := { live := [], latch := none, notes := 0, ease := none } } := by
  simp [Head.faulted, Head.cutOff, he, Head.cycleEnded, Bank.initial]

/-- R63, R86: the fields that FAULT writes, with or without a cycle. -/
theorem Head.faulted_fields (cause : Reason) (w : Head) :
    (w.faulted cause).state = .fault ∧ (w.faulted cause).faultCause = some cause ∧ (w.faulted cause).settle = 0
      ∧ (w.faulted cause).claim = none ∧ (w.faulted cause).engine = none ∧ (w.faulted cause).gate = w.gate.fault
      ∧ (w.faulted cause).cfg = w.cfg := by
  cases he : w.engine with
  | none => rw [w.faulted_idle cause he]; exact ⟨rfl, rfl, rfl, rfl, he, rfl, rfl⟩
  | some c => rw [w.faulted_cycle cause c he]; exact ⟨rfl, rfl, rfl, rfl, rfl, rfl, rfl⟩

theorem Station.head_toFault_inService (h : HeadNo) (cause : Reason) (s : Station)
    (hs : (s.head h).state.inService = true) : (s.toFault h cause).head h = (s.head h).faulted cause := by
  rw [Station.head_toFault, if_pos ⟨rfl, hs⟩]

theorem Station.head_toFault_other (h j : HeadNo) (cause : Reason) (s : Station) (hj : j ≠ h) :
    (s.toFault h cause).head j = s.head j := by
  rw [Station.head_toFault, if_neg (fun e => hj e.1.symm)]

/-- R63: HEAD_FAULT is raised when a cause reaches a head in service. -/
theorem Station.toFault_raised (h : HeadNo) (cause : Reason) (s : Station) (hs : (s.head h).state.inService = true) :
    (s.toFault h cause).faults.raw.getLsbD FaultKind.headFault.number = true := by
  rw [Station.toFault, if_pos hs]
  exact Station.raise_raised _ _

end Sys2Proof.Machine
end

section
/-!
What a cause does to a head, its cycle and its hole (R63), the drive status FAULT (R22), and the loss limit (R11).
-/
namespace Sys2Proof.Machine

/-! ## FAULT and the blocks -/

/-- R63: without a cycle, the claim goes and nothing is queued. -/
theorem Station.toFault_idle_blocks (h : HeadNo) (cause : Reason) (s t : Station) (ht : t = s.toFault h cause)
    (hs : (s.head h).state.inService = true) (he : (s.head h).engine = none) :
    (t.head h).queue = (s.head h).queue ∧ t.results = s.results
      ∧ t.head h
        = { s.head h with
            claim := none, settle := 0, gate := (s.head h).gate.fault, state := .fault, faultCause := some cause }
      ∧ t.faults = s.faults.raise .headFault
      ∧ ((s.head h).claim = none → t.table = s.table)
      ∧ (∀ a, (s.head h).claim = some a →
        t.table = { s.table with holes := t.table.holes }
          ∧ (∀ i, i ≠ a.hole → t.hole i = s.hole i)
          ∧ t.hole a.hole = (s.hole a.hole).map fun v => { v with claimant := none }) := by
  have hhead : t.head h = (s.head h).faulted cause := by rw [ht, Station.head_toFault_inService h cause s hs]
  have hhole : ∀ i, t.hole i = (s.releaseClaim h).hole i := fun i => by rw [ht, Station.toFault_idle h cause s hs he]; simp
  have htable : t.table = (s.releaseClaim h).table := by rw [ht, Station.toFault_idle h cause s hs he]; simp
  rw [Head.faulted_idle cause _ he] at hhead
  refine ⟨by rw [hhead], by rw [ht, Station.toFault_results s h cause he], hhead, ?_, fun hc => ?_, fun a ha => ⟨?_, ?_, ?_⟩⟩
  · rw [ht, Station.toFault_idle h cause s hs he]; simp
  · rw [htable, Station.releaseClaim_none h s hc]
  · rw [htable]; exact Station.releaseClaim_table h s
  · intro i hi
    rw [hhole, Station.hole_releaseClaim, if_neg]
    rw [ha]; simpa using Ne.symm hi
  · rw [hhole, Station.hole_releaseClaim, if_pos (by rw [ha]; rfl)]

/-- R63, R35, R78: with a cycle in flight, it ends FAILED with the cause. -/
theorem Station.toFault_cycle_blocks (h : HeadNo) (cause : Reason) (s t : Station) (c : Cycle) (ht : t = s.toFault h cause)
    (hs : (s.head h).state.inService = true) (he : (s.head h).engine = some c) :
    (t.head h).queue = (s.head h).queue.erase c.hole
      ∧ t.faults.raw.getLsbD FaultKind.cycleFailed.number = true
      ∧ t.results.records = s.results.records ++ [s.cycleRecord h c .failed cause]
      ∧ t.head h
        = { s.head h with
            claim := none, settle := 0, gate := (s.head h).gate.fault, state := .fault, faultCause := some cause
            queue := (s.head h).queue.erase c.hole, engine := none
            bank := { live := [], latch := none, notes := 0, ease := none } }
      ∧ (∀ v, s.hole c.hole = some v →
        t.hole c.hole = some { v with state := .rejected, claimant := none, last := some (.failed, cause) })
      ∧ (∀ i, i ≠ c.hole → (∀ a, (s.head h).claim = some a → a.hole ≠ i) → t.hole i = s.hole i)
      ∧ t.table.jig = s.table.jig ∧ t.table.jigId = s.table.jigId ∧ t.table.halfA = s.table.halfA
      ∧ t.table.complete
          = (s.table.complete || (s.table.jig == .working && t.table.holes.all fun e => e.2.terminal))
      ∧ t.results.upper = s.results.upper ∧ t.results.lower = s.results.lower := by
  have heq := Station.toFault_cycle h cause s c hs he
  have hhead : t.head h = (s.head h).faulted cause := by rw [ht, Station.head_toFault_inService h cause s hs]
  rw [Head.faulted_cycle cause _ c he] at hhead
  have htable : t.table = (s.concludeCycle h c .failed cause).table := by rw [ht, heq]; simp
  have hresults : t.results = (s.concludeCycle h c .failed cause).results := by rw [ht, heq]; simp
  have hhole : ∀ i, t.hole i = (s.concludeCycle h c .failed cause).hole i := fun i => by rw [ht, heq]; simp
  obtain ⟨hu, hl, _⟩ := Station.concludeCycle_results h c .failed cause s _ rfl
  rw [Station.concludeCycle_table] at htable
  refine ⟨by rw [hhead], ?_, ?_, hhead, fun v hv => ?_, fun i hi hc => ?_, ?_, ?_, ?_, ?_, ?_, ?_⟩
  · rw [ht, heq]
    refine Station.raise_keeps _ _ _ (Station.completenessIfWorking_keeps _ _ ?_)
    exact Station.raiseAll_raised _ _ _ (List.mem_singleton.mpr rfl)
  · rw [hresults, Station.concludeCycle_records]
  · rw [hhole, Station.hole_failed_same h c cause s v hv]
  · rw [hhole, Station.hole_concludeCycle_other h c .failed cause s i hi hc]
  · rw [htable]
  · rw [htable]
  · rw [htable]
  · rw [htable]
  · rw [hresults, hu]
  · rw [hresults, hl]

/-- R158, R44, R165: the hold and the fault sets after a cycle cut off by a cause. -/
theorem Station.toFault_cycle_faults (h : HeadNo) (cause : Reason) (s t : Station) (c : Cycle) (n : Nat)
    (joined told : FaultUnit) (ht : t = s.toFault h cause)
    (hs : (s.head h).state.inService = true) (he : (s.head h).engine = some c) (hn : n = s.results.records.length + 1)
    (hj : joined = (if s.results.hold = false ∧ s.results.upper ≤ n then s.faults.raise .resultHold else s.faults))
    (htold : told = joined.raise .cycleFailed) :
    t.results.hold = (if s.results.hold then decide (s.results.lower < n) else decide (s.results.upper ≤ n))
      ∧ t.faults = (if s.table.jig = .working ∧ s.table.complete = false
          ∧ (t.table.holes.all fun e => e.2.terminal) = true then told.raise .jigComplete else told).raise .headFault := by
  subst hn
  have heq := Station.toFault_cycle h cause s c hs he
  obtain ⟨_, _, hhold⟩ := Station.concludeCycle_results h c .failed cause s _ rfl
  have hholes : t.table.holes = s.endedHoles h c .failed cause := by
    rw [ht, heq, Station.raise_table, Station.modHead_table, Station.concludeCycle_table]
  refine ⟨by rw [ht, heq]; exact hhold, ?_⟩
  rw [hholes, ht, heq, Station.raise_faults, Station.modHead_faults,
    Station.concludeCycle_faults h c .failed cause s joined told hj htold]

/-! ## A drive status FAULT -/

theorem DriveStatus.ofCode_above (b : Byte) (h : 1 < b.toNat) : DriveStatus.ofCode b = .fault := by
  unfold DriveStatus.ofCode
  split
  · omega
  · omega
  · rfl

theorem HeadState.not_inCycle_of_not_inService (st : HeadState) (h : st.inService = false) : st.inCycle = false := by
  cases st
  case offline | fault => rfl
  all_goals exact Bool.noConfusion h

/-- A head OFFLINE or in FAULT makes no test on a CARRIAGE return. -/
theorem Station.controllerReturn_outOfService (h : HeadNo) (actual : Spot) (s : Station)
    (hs : (s.head h).state.inService = false) : s.controllerReturn h actual = s := by
  unfold Station.controllerReturn
  cases hst : (s.head h).state
  case offline | fault => rfl
  all_goals exact absurd hs (by rw [hst]; decide)

/-- A head OFFLINE or in FAULT makes no step on a TOOL return. -/
theorem Station.engineReturn_outOfService (h : HeadNo) (fb : Feedback) (s : Station)
    (hs : (s.head h).state.inService = false) : s.engineReturn h fb = s := by
  have hnone : (s.head h).cycleReturning = none := by
    simp [Head.cycleReturning, HeadState.not_inCycle_of_not_inService _ hs]
  simp [Station.engineReturn, hnone]

theorem Station.setHead_setHead (h : HeadNo) (v w : Head) (s : Station) : (s.setHead h v).setHead h w = s.setHead h w := by
  simp [Station.setHead]

/-- R22: a drive status FAULT of a head out of service is only recorded. -/
theorem Station.driveReports_outOfService (h : HeadNo) (st : DriveStatus) (s : Station)
    (hs : (s.head h).state.inService = false) : s.driveReports h st = s := if_neg (by simp [hs])

theorem Station.driveReports_fault (h : HeadNo) (s : Station) (hs : (s.head h).state.inService = true) :
    s.driveReports h .fault = (s.raise .driveFault).toFault h .driveFault := if_pos ⟨rfl, hs⟩

/-- R22: after a drive status FAULT no head is in service. -/
theorem Station.driveReports_fault_state (h : HeadNo) (s : Station) :
    ((s.driveReports h .fault).head h).state.inService = false := by
  cases hs : (s.head h).state.inService with
  | false => rwa [Station.driveReports_outOfService h .fault s hs]
  | true =>
    rw [Station.driveReports_fault h s hs, Station.head_toFault_inService h _ _ (by exact hs), (Head.faulted_fields _ _).1]
    rfl

/-- R22, R89 (log 20): a CARRIAGE return with a drive status FAULT: the status, then the gate, and no test. -/
theorem Station.carriageReturn_fault (h : HeadNo) (payload : List Byte) (s : Station) (hp : 1 < (byteAt payload 17).toNat) :
    s.carriageReturn h payload =
      Station.modHead h (fun w => { w with gate := w.gate.returned (carriageActual payload) })
        ((s.setHead h { s.head h with carriageStatus := .fault }).driveReports h .fault) := by
  have hst : carriageStatus payload = .fault := DriveStatus.ofCode_above _ hp
  unfold Station.carriageReturn
  rw [hst]
  refine Station.controllerReturn_outOfService h _ _ ?_
  rw [Station.head_modHead_same]
  exact Station.driveReports_fault_state h _

/-- R22: a TOOL return with a drive status FAULT: the status, and no step. -/
theorem Station.toolReturn_fault (h : HeadNo) (payload : List Byte) (s : Station) (hp : 1 < (byteAt payload 18).toNat) :
    s.toolReturn h payload = (s.setHead h { s.head h with toolStatus := .fault }).driveReports h .fault := by
  have hst : (toolFeedback payload).status = .fault := DriveStatus.ofCode_above _ hp
  unfold Station.toolReturn
  dsimp only
  rw [hst]
  exact Station.engineReturn_outOfService h _ _ (Station.driveReports_fault_state h _)

/-- Settles O18. -/
theorem faultCauseStopsTheHead : Obligations.FaultCauseStopsTheHead := by
  refine ⟨fun h cause s t ht => ⟨fun hs => ?_, fun hs => ?_⟩, fun g => rfl, fun h payload s u w actual hw hp hactual =>
    ⟨fun hs => ?_, fun hs hu => ?_⟩, fun h payload s w hw hp => ⟨fun hs => ?_, fun hs => ?_⟩⟩
  · rw [ht, Station.toFault_outOfService h cause s hs]
  · obtain ⟨hstate, hcause, hsettle, hclaim, hengine, hgate, hcfg⟩ := (s.head h).faulted_fields cause
    rw [← Station.head_toFault_inService h cause s hs, ← ht] at hstate hcause hsettle hclaim hengine hgate hcfg
    refine ⟨hstate, hcause, hsettle, hclaim, hengine, hgate, hcfg, by rw [ht, Station.toFault_raised h cause s hs],
      fun j hj => by rw [ht, Station.head_toFault_other h j cause s hj], by simp [ht], by simp [ht], by simp [ht],
      by simp [ht], by simp [ht], Station.toFault_idle_blocks h cause s t ht hs,
      fun c => Station.toFault_cycle_blocks h cause s t c ht hs, fun c n joined told he hn hj htold =>
        Station.toFault_cycle_faults h cause s t c n joined told ht hs he hn hj htold⟩
  · subst hw hactual
    rw [Station.carriageReturn_fault h payload s hp, Station.driveReports_outOfService h _ _ (by simpa using hs)]
    simp [Station.modHead, Station.setHead_setHead, carriageActual, intAt]
  · subst hw hactual hu
    rw [Station.carriageReturn_fault h payload s hp, Station.driveReports_fault h _ (by simpa using hs)]
    rfl
  · subst hw
    rw [Station.toolReturn_fault h payload s hp, Station.driveReports_outOfService h _ _ (by simpa using hs)]
  · subst hw
    rw [Station.toolReturn_fault h payload s hp, Station.driveReports_fault h _ (by simpa using hs)]

/-! ## A lost frame -/

theorem Station.concludeCycle_keeps (h : HeadNo) (c : Cycle) (o : CycleOutcome) (why : Reason) (s : Station) (n : Nat)
    (hn : s.faults.raw.getLsbD n = true) : (s.concludeCycle h c o why).faults.raw.getLsbD n = true := by
  refine Station.completenessIfWorking_keeps _ _ (Station.raiseAll_keeps _ _ _ (Station.holdTest_keeps _ _ ?_))
  simpa using hn

/-- R165: a cause that reaches a head takes no kind out of the raw set. -/
theorem Station.toFault_keeps (h : HeadNo) (cause : Reason) (s : Station) (n : Nat) (hn : s.faults.raw.getLsbD n = true) :
    (s.toFault h cause).faults.raw.getLsbD n = true := by
  cases hs : (s.head h).state.inService with
  | false => rwa [Station.toFault_outOfService h cause s hs]
  | true =>
    cases he : (s.head h).engine with
    | none =>
      rw [Station.toFault_idle h cause s hs he]
      exact Station.raise_keeps _ _ _ (by simpa using hn)
    | some c =>
      rw [Station.toFault_cycle h cause s c hs he]
      exact Station.raise_keeps _ _ _ (Station.concludeCycle_keeps h c _ _ s n hn)

/-- R63: a head that a cause has reached, in service or not. -/
def Head.reached (cause : Reason) (w : Head) : Head := if w.state.inService then w.faulted cause else w

theorem Station.head_toFault_reached (s : Station) (h j : HeadNo) (cause : Reason) :
    (s.toFault h cause).head j = if h = j then (s.head h).reached cause else s.head j := by
  rw [Station.head_toFault]
  by_cases hj : h = j
  · subst hj
    cases hs : (s.head h).state.inService
    · simp [Head.reached, hs]
    · simp [Head.reached, hs]
  · simp [hj]

/-- R11, R63: a cause that reaches every head raises HEAD_FAULT when one of them is in service. -/
theorem Station.eachHead_toFault_raised (cause : Reason) (s : Station) (h : HeadNo) (hs : (s.head h).state.inService = true) :
    (s.eachHead fun j u => u.toFault j cause).faults.raw.getLsbD FaultKind.headFault.number = true := by
  have hother : ∀ (j : HeadNo) (u : Station), j ≠ h → (u.head h).state.inService = true →
      ((u.toFault j cause).head h).state.inService = true := fun j u hj hu => by
    rwa [Station.head_toFault_other j h cause u hj.symm]
  have hkeep := fun (j : HeadNo) (u : Station) => Station.toFault_keeps j cause u FaultKind.headFault.number
  have hraise := fun (u : Station) => Station.toFault_raised h cause u
  match h with
  | 0 => exact hkeep 3 _ (hkeep 2 _ (hkeep 1 _ (hraise _ hs)))
  | 1 => exact hkeep 3 _ (hkeep 2 _ (hraise _ (hother 0 _ (by decide) hs)))
  | 2 => exact hkeep 3 _ (hraise _ (hother 1 _ (by decide) (hother 0 _ (by decide) hs)))
  | 3 => exact hraise _ (hother 2 _ (by decide) (hother 1 _ (by decide) (hother 0 _ (by decide) hs)))

/-- R11, R12: the losses are counted and the answer is gone. -/
def Station.lossCounted (s : Station) : Station :=
  { s with
    ring := { s.ring with lostReturns := satInc s.ring.lostReturns, losses := min (s.ring.losses + 1) 255 }
    mgmt := { s.mgmt with answer := none } }

theorem Station.declareLost_below (s : Station) (h : min (s.ring.losses + 1) 255 < s.ring.lossLimit) :
    s.declareLost = s.lossCounted := if_neg (Nat.not_le.mpr h)

theorem Station.declareLost_atLimit (s : Station) (h : s.ring.lossLimit ≤ min (s.ring.losses + 1) 255) :
    s.declareLost = (s.lossCounted.eachHead fun j u => u.toFault j .spurLoss).raise .spurLoss := if_pos h

theorem HeadState.inService_iff (st : HeadState) : st.inService = true ↔ st ≠ .offline ∧ st ≠ .fault := by
  cases st <;> decide

theorem satInc_toNat (c : Word) : (satInc c).toNat = min (c.toNat + 1) 4294967295 := by
  unfold satInc
  split
  · next h => subst h; rfl
  · next h =>
    have hne : c.toNat ≠ 4294967295 := fun he => h (BitVec.eq_of_toNat_eq (by simpa using he))
    have hlt := c.isLt
    show (c.toNat + 1) % 4294967296 = _
    omega

/-- R11: what the loss limit does to one head. -/
theorem Station.head_declareLost_atLimit (s : Station) (hl : s.ring.lossLimit ≤ min (s.ring.losses + 1) 255) (h : HeadNo) :
    s.declareLost.head h = (s.head h).reached .spurLoss := by
  rw [Station.declareLost_atLimit s hl, Station.head_raise,
    Station.head_eachHead _ (Head.reached .spurLoss) (fun u i j => Station.head_toFault_reached u i j _)]
  rfl

/-- Settles O9. -/
theorem lostFrameCountsAndFaultsAtTheLimit : Obligations.LostFrameCountsAndFaultsAtTheLimit := by
  refine ⟨fun s t ht => ?_, fun s counted hc => ?_, HeadState.inService_iff, satInc_toNat⟩
  · subst ht
    obtain ⟨hmgmt, hprof, hcor, hkeep⟩ := s.declareLost_blocks
    refine ⟨s.declareLost_ring, hmgmt, hprof, hcor, hkeep, fun hl => ?_, fun hl => ⟨?_, fun h => ⟨fun hs => ?_, fun hs => ?_⟩⟩⟩
    · rw [s.declareLost_below hl]; exact ⟨rfl, rfl, rfl, rfl⟩
    · rw [s.declareLost_atLimit hl]; exact Station.raise_raised _ _
    · rw [s.head_declareLost_atLimit hl, Head.reached, if_neg (by simp [hs])]
    · obtain ⟨hstate, hcause, hsettle, hclaim, hengine, hgate, _⟩ := (s.head h).faulted_fields .spurLoss
      rw [s.head_declareLost_atLimit hl, Head.reached, if_pos hs]
      refine ⟨hstate, hcause, hengine, hclaim, hsettle, hgate, ?_⟩
      rw [s.declareLost_atLimit hl]
      exact Station.raise_keeps _ _ _ (Station.eachHead_toFault_raised _ _ h hs)
  · subst hc
    exact ⟨s.declareLost_below, s.declareLost_atLimit⟩

end Sys2Proof.Machine
end

section
/-!
What CARRIAGE and TOOL sections carry out of the part (R14, R81 to R84, R106, R131).
-/
namespace Sys2Proof.Machine

/-! ## CARRIAGE -/

/-- R84: a payload whose setpoints pass leaves as it came but for GATED, which is clear. -/
theorem carriageOut_pass (l : List Byte) (hl : l.length = 18) : carriageOut l (carriageSetpoint l) false = l.set 16 0x00 := by
  match l, hl with
  | [b0, b1, b2, b3, b4, b5, b6, b7, b8, b9, b10, b11, b12, b13, b14, b15, b16, b17], _ =>
    simp [carriageOut, carriageSetpoint, byteAt, flagByte]

theorem Gate.outbound_opened (g : Gate) (band : Int) (sp : Spot) (hg : g.state = .opened) :
    g.outbound band sp = { gate := { g with passed := some sp, sent := some sp }, setpoint := sp, gated := false } := by
  obtain ⟨state, passed, held, sent, dev, dist⟩ := g
  subst hg
  rfl

theorem Gate.replace_held (g : Gate) (sp p : Spot) (hp : g.held = some p) :
    g.replace sp = { gate := { g with sent := some p }, setpoint := p, gated := true } := by
  simp [Gate.replace, hp]

theorem Gate.outbound_held (g : Gate) (band : Int) (sp p : Spot) (hg : g.state = .held) (hp : g.held = some p) :
    g.outbound band sp = { gate := { g with sent := some p }, setpoint := p, gated := true } := by
  rw [← g.replace_held sp p hp]
  simp only [Gate.outbound, hg]

/-- R83: the rejoin test. -/
theorem Gate.rejoins_iff (g : Gate) (band : Int) (sp p : Spot) (hp : g.held = some p) :
    g.rejoins band sp = true ↔ (sp.x - p.x).natAbs ≤ band ∧ (sp.t - p.t).natAbs ≤ band := by
  simp only [Gate.rejoins, hp]
  exact decide_eq_true_iff

theorem Gate.outbound_rejoins (g : Gate) (band : Int) (sp : Spot) (hg : g.state = .rejoin) (hr : g.rejoins band sp = true) :
    g.outbound band sp =
      { gate := { g with state := .opened, held := none, passed := some sp, sent := some sp }, setpoint := sp, gated := false } := by
  simp [Gate.outbound, hg, hr, Gate.pass]

theorem Gate.outbound_apart (g : Gate) (band : Int) (sp p : Spot) (hg : g.state = .rejoin) (hp : g.held = some p)
    (hr : ¬ g.rejoins band sp = true) :
    g.outbound band sp = { gate := { g with sent := some p }, setpoint := p, gated := true } := by
  rw [← g.replace_held sp p hp]
  simp only [Gate.outbound, hg, hr, Bool.false_eq_true, if_false]

/-- R14: a CARRIAGE section leaves as this head's gate lets it out, and only that gate changes. -/
theorem Station.carriageOutbound_eq (h : HeadNo) (payload : List Byte) (s : Station) (o : GateOut)
    (ho : (s.head h).gate.outbound (s.head h).cfg.settleBand (carriageSetpoint payload) = o) :
    s.carriageOutbound h payload
      = (s.setHead h { s.head h with gate := o.gate }, carriageOut payload o.setpoint o.gated) := by
  subst ho
  rfl

/-! ## TOOL -/

theorem Station.toolOutbound_none (h : HeadNo) (payload : List Byte) (s : Station)
    (he : (s.head h).engine = none ∨ ∃ c, (s.head h).engine = some c ∧ c.begun = false) :
    s.toolOutbound h payload = (s, List.replicate 8 0x00 ++ payload.drop 8) := by
  unfold Station.toolOutbound
  obtain he | ⟨c, he, hb⟩ := he
  · rw [he]; rfl
  · rw [he]; simp only [hb]; rfl

/-- R106: a cycle that has begun before this pass sends its pending setpoint. -/
theorem Station.toolOutbound_begun (h : HeadNo) (payload : List Byte) (s : Station) (c : Cycle)
    (he : (s.head h).engine = some c) (hb : c.begun = true) :
    s.toolOutbound h payload = (s.setHead h { s.head h with engine := some c.carried }, c.toolOut payload) := by
  unfold Station.toolOutbound
  rw [he]
  simp only [hb, if_true]
  rfl

theorem Cycle.carried_drill (c : Cycle) (d : DrillWork) (hw : c.work = .drill d) :
    c.carried = { c with sent := some c.p, frames := min (c.frames + 1) 65535 } := by
  obtain ⟨hole, phase, p, s, stopBound, sent, frames, peak, homeWait, decision, begun, stopped, work⟩ := c
  subst hw
  rfl

theorem Cycle.carried_set (c : Cycle) (d : SetWork) (hw : c.work = .set d) :
    c.carried =
      { c with
        sent := some c.p, frames := min (c.frames + 1) 65535, work := .set { d with deepest := max d.deepest c.p } } := by
  rw [Cycle.carried, hw]
  rfl

theorem Cycle.toolOut_drill (c : Cycle) (d : DrillWork) (hw : c.work = .drill d) (l : List Byte) :
    c.toolOut l = [0x01, 0x01] ++ um c.p ++ u16 d.prof.spindleSpeed ++ l.drop 8 := by
  rw [Cycle.toolOut, hw]
  rfl

theorem Cycle.toolOut_set (c : Cycle) (d : SetWork) (hw : c.work = .set d) (l : List Byte) :
    c.toolOut l = [0x02, 0x00] ++ um c.p ++ [0x00, 0x00] ++ l.drop 8 := by
  rw [Cycle.toolOut, hw]
  rfl

/-- Settles O17. -/
theorem outboundSetpointsOfCarriageAndTool : Obligations.OutboundSetpointsOfCarriageAndTool := by
  refine ⟨fun h payload s sp g hl hsp hg => ⟨fun hst => ?_, fun p hst hp => ?_, fun p hst hp => ⟨fun hr => ?_, fun hr => ?_⟩⟩,
    fun h payload s hl => ⟨s.toolOutbound_none h payload, fun c d he hb hw => ?_, fun c d he hb hw => ?_⟩,
    fun h j w s => ?_⟩
  · subst hg hsp
    rw [Station.carriageOutbound_eq h payload s _ (Gate.outbound_opened _ _ _ hst), carriageOut_pass payload hl]
    rfl
  · subst hg
    rw [Station.carriageOutbound_eq h payload s _ (Gate.outbound_held _ _ _ p hst hp)]
    rfl
  · subst hg hsp
    rw [Station.carriageOutbound_eq h payload s _
      (Gate.outbound_rejoins _ _ _ hst ((Gate.rejoins_iff _ _ _ p hp).mpr hr)), carriageOut_pass payload hl]
    rfl
  · subst hg hsp
    rw [Station.carriageOutbound_eq h payload s _
      (Gate.outbound_apart _ _ _ p hst hp (fun h => hr ((Gate.rejoins_iff _ _ _ p hp).mp h)))]
    rfl
  · rw [Station.toolOutbound_begun h payload s c he hb, c.carried_drill d hw, c.toolOut_drill d hw]
  · rw [Station.toolOutbound_begun h payload s c he hb, c.carried_set d hw, c.toolOut_set d hw]
  · rw [Station.head_setHead]
    exact ite_congr (propext eq_comm) (fun _ => rfl) fun _ => rfl

end Sys2Proof.Machine
end

section
/-!
Which frames are damaged, the frame check, and what a damaged frame does (R3 to R5, R10).
-/
namespace Sys2Proof.Machine

/-! ## The bytes of a list -/

theorem byteAt_append_left (a b : List Byte) (o : Nat) (h : o < a.length) : byteAt (a ++ b) o = byteAt a o := by
  simp only [byteAt, List.getD_eq_getElem?_getD, List.getElem?_append_left h]

theorem byteAt_take (l : List Byte) (n o : Nat) (h : o < n) : byteAt (l.take n) o = byteAt l o := by
  simp only [byteAt, List.getD_eq_getElem?_getD, List.getElem?_take_of_lt h]

theorem byteAt_drop (l : List Byte) (n o : Nat) : byteAt (l.drop n) o = byteAt l (n + o) := by
  simp only [byteAt, List.getD_eq_getElem?_getD, List.getElem?_drop]

theorem halfAt_append_left (a b : List Byte) (o : Nat) (h : o + 1 < a.length) : halfAt (a ++ b) o = halfAt a o := by
  rw [halfAt, halfAt, byteAt_append_left a b _ (by omega), byteAt_append_left a b _ h]

theorem halfAt_take (l : List Byte) (n o : Nat) (h : o + 1 < n) : halfAt (l.take n) o = halfAt l o := by
  rw [halfAt, halfAt, byteAt_take l n _ (by omega), byteAt_take l n _ h]

/-! ## The check -/

/-- R3: the last four bytes of a list that has them. -/
theorem take_append_wordAt (b : List Byte) (h : 4 ≤ b.length) :
    b.take (b.length - 4) ++ bytes32 (wordAt b (b.length - 4)) = b := by
  have hlen : (b.drop (b.length - 4)).length = 4 := by rw [List.length_drop]; omega
  have hdrop : b.drop (b.length - 4) = bytes32 (wordAt b (b.length - 4)) := by
    have hbytes := take_eq_map_byteAt (b.drop (b.length - 4)) 4 (Nat.le_of_eq hlen.symm)
    rw [List.take_of_length_le (Nat.le_of_eq hlen)] at hbytes
    rw [hbytes, wordAt, bytes32_join32]
    simp [List.range_succ, byteAt_drop]
  rw [← hdrop, List.take_append_drop]

theorem bytes32_injective {v w : Word} (h : bytes32 v = bytes32 w) : v = w := by
  have hv := join32_split v
  have hw := join32_split w
  simp only [bytes32, List.cons.injEq, and_true] at h
  obtain ⟨h0, h1, h2, h3⟩ := h
  rw [← hv, ← hw, h0, h1, h2, h3]

/-- R3: the check passes when the stored four bytes are the one computed over the bytes before them. -/
theorem checkPasses_iff (b : List Byte) (h : 4 ≤ b.length) :
    checkPasses b = true ↔ wordAt b (b.length - 4) = crc32 (b.take (b.length - 4)) := by
  simp only [checkPasses, beq_iff_eq, withCheck]
  constructor
  · intro hb
    refine bytes32_injective (List.append_cancel_left (as := b.take (b.length - 4)) ?_)
    rw [take_append_wordAt b h]
    exact hb
  · intro hw
    rw [← hw, take_append_wordAt b h]

/-- R3: one bit of the reflected register, as an operation on words. -/
def crcStep (r : Word) : Word := if r.getLsbD 0 = true then (r >>> 1) ^^^ (0x04C11DB7 : Word).reverse else r >>> 1

theorem crcPolynomial_reverse : (0x04C11DB7 : Word).reverse = 0xEDB88320 := by
  apply BitVec.eq_of_getLsbD_eq
  simp only [BitVec.getLsbD_reverse]
  decide

theorem crcStep_toNat (r : Word) : (crcStep r).toNat = crcBit r.toNat := by
  have hbit : r.getLsbD 0 = decide (r.toNat % 2 = 1) := by simp [BitVec.getLsbD, Nat.testBit_zero]
  unfold crcStep crcBit
  rw [hbit]
  by_cases hodd : r.toNat % 2 = 1
  · rw [decide_eq_true hodd, if_pos rfl, if_pos hodd, crcPolynomial_reverse, BitVec.toNat_xor,
      BitVec.toNat_ushiftRight, Nat.shiftRight_eq_div_pow]
    rfl
  · simp [hodd, Nat.shiftRight_eq_div_pow]

/-- R3: one byte, as an operation on words. -/
def crcStepByte (r : Word) (x : Byte) : Word := (List.range 8).foldl (fun r _ => crcStep r) (r ^^^ x.setWidth 32)

theorem crcStepByte_toNat (r : Word) (x : Byte) : (crcStepByte r x).toNat = crcByte r.toNat x.toNat := by
  have hx : (x.setWidth 32).toNat = x.toNat := by
    rw [BitVec.toNat_setWidth, Nat.mod_eq_of_lt]
    have := x.isLt
    omega
  have hrange : List.range 8 = [0, 1, 2, 3, 4, 5, 6, 7] := rfl
  simp only [crcStepByte, hrange, List.foldl_cons, List.foldl_nil, crcStep_toNat, BitVec.toNat_xor, hx, crcByte]

theorem foldl_crcStepByte_toNat (b : List Byte) (r : Word) :
    (b.foldl crcStepByte r).toNat = b.foldl (fun r x => crcByte r x.toNat) r.toNat := by
  induction b generalizing r with
  | nil => rfl
  | cons x b ih => rw [List.foldl_cons, ih, crcStepByte_toNat]; rfl

/-- R3: the check is the complemented register of the reflected CRC-32. -/
theorem crc32_eq (b : List Byte) : crc32 b = ~~~(b.foldl crcStepByte 0xFFFFFFFF) := by
  have hreg : crcRegister b 0xFFFFFFFF = (b.foldl crcStepByte 0xFFFFFFFF).toNat := by
    rw [crcRegister_eq_foldl b _ (by decide), foldl_crcStepByte_toNat]; rfl
  rw [crc32, hreg, ← BitVec.xor_allOnes]
  apply BitVec.eq_of_toNat_eq
  rw [BitVec.toNat_ofNat, BitVec.toNat_xor, Nat.mod_eq_of_lt]
  · rfl
  · exact Nat.xor_lt_two_pow (BitVec.isLt _) (by decide)

/-! ## The structure test -/

theorem classify_damaged_of_check (b : List Byte)
    (h : b.length < 13 ∨ 1500 < b.length ∨ checkPasses b = false ∨ (halfAt b 4).toNat ≠ b.length) :
    classify b = .damaged := by
  unfold classify
  by_cases hlen : b.length < 13 ∨ 1500 < b.length
  · rw [if_pos hlen]
  · rw [if_neg hlen]
    by_cases hcheck : checkPasses b = false
    · rw [if_pos hcheck]
    · rw [if_neg hcheck, if_pos]
      obtain hlo | hhi | hfail | hfield := h
      · exact absurd (.inl hlo) hlen
      · exact absurd (.inr hhi) hlen
      · exact absurd hfail hcheck
      · exact hfield

/-- R3, R4: the tests that come before the kind of a frame. -/
def passesCheck (b : List Byte) : Prop :=
  13 ≤ b.length ∧ b.length ≤ 1500 ∧ checkPasses b = true ∧ (halfAt b 4).toNat = b.length

theorem classify_of_passesCheck (b : List Byte) (h : passesCheck b) :
    classify b =
      if byteAt b 0 ≠ 1 then .other
      else if byteAt b 6 = 0 ∨ 48 < (byteAt b 6).toNat then .damaged
      else (((walkSections (byteAt b 6).toNat ((b.take (b.length - 4)).drop 7)).map fun sections =>
        Arrival.cycle { header := b.take 7, sections }).getD .damaged) := by
  obtain ⟨hlo, hhi, hcheck, hlen⟩ := h
  unfold classify
  rw [if_neg (by omega), if_neg (by simp [hcheck]), if_neg (by simp [hlen])]
  cases walkSections (byteAt b 6).toNat ((b.take (b.length - 4)).drop 7) <;> rfl

theorem classify_damaged_or_passesCheck (b : List Byte) : classify b = .damaged ∨ passesCheck b := by
  by_cases h : b.length < 13 ∨ 1500 < b.length ∨ checkPasses b = false ∨ (halfAt b 4).toNat ≠ b.length
  · exact .inl (classify_damaged_of_check b h)
  · simp only [not_or, Nat.not_lt, Bool.not_eq_false, Decidable.not_not] at h
    exact .inr h

theorem Frame.bytes_length (f : Frame) : f.bytes.length = f.header.length + (f.sections.flatMap Sect.bytes).length + 4 := by
  simp only [Frame.bytes, withCheck, List.length_append, bytes32_length]

theorem Frame.bytes_take (f : Frame) :
    f.bytes.take (f.bytes.length - 4) = f.header ++ f.sections.flatMap Sect.bytes := by
  rw [Frame.bytes_length, Frame.bytes, withCheck]
  exact List.take_left' (by rw [List.length_append, Nat.add_sub_cancel])

theorem Frame.byteAt_bytes (f : Frame) (o : Nat) (h : o < f.header.length) : byteAt f.bytes o = byteAt f.header o := by
  rw [Frame.bytes, withCheck, List.append_assoc, byteAt_append_left _ _ _ h]

theorem Frame.halfAt_bytes (f : Frame) (o : Nat) (h : o + 1 < f.header.length) : halfAt f.bytes o = halfAt f.header o := by
  rw [Frame.bytes, withCheck, List.append_assoc, halfAt_append_left _ _ _ h]

theorem Frame.bytes_take_header (f : Frame) (h : f.header.length = 7) : f.bytes.take 7 = f.header := by
  rw [Frame.bytes, withCheck, List.append_assoc, ← h, List.take_left]

theorem Frame.bytes_drop_header (f : Frame) (h : f.header.length = 7) :
    (f.bytes.take (f.bytes.length - 4)).drop 7 = f.sections.flatMap Sect.bytes := by
  rw [Frame.bytes_take, ← h, List.drop_left]

/-- R4: a section takes at least its two header bytes. -/
theorem length_le_flatMap_bytes (ss : List Sect) : 2 * ss.length ≤ (ss.flatMap Sect.bytes).length := by
  induction ss with
  | nil => simp
  | cons x ss ih => simp only [List.flatMap_cons, List.length_append, List.length_cons, Sect.bytes]; omega

/-- R4: a sound CYCLE frame is taken as itself. -/
theorem Frame.classify_bytes (f : Frame) (hf : f.sound) : classify f.bytes = .cycle f := by
  obtain ⟨hlen, hkind, hlength, hmax, hcount, hone, hmany, hsects⟩ := hf
  have hpass : passesCheck f.bytes := by
    refine ⟨?_, hmax, f.checkPasses_bytes, ?_⟩
    · have := length_le_flatMap_bytes f.sections
      rw [Frame.bytes_length]; omega
    · rw [f.halfAt_bytes 4 (by omega), hlength]
  have h6 : byteAt f.bytes 6 = byteAt f.header 6 := f.byteAt_bytes 6 (by omega)
  rw [classify_of_passesCheck _ hpass, f.byteAt_bytes 0 (by omega), hkind, if_neg (by decide), h6, if_neg, hcount,
    f.bytes_drop_header hlen, walkSections_bytes _ hsects, f.bytes_take_header hlen]
  · rfl
  · rintro (h0 | hbig)
    · rw [h0] at hcount; simp at hcount; omega
    · omega

/-- R4: what is taken as a CYCLE frame is the bytes of that frame, and the frame is sound. -/
theorem sound_of_classify_cycle (b : List Byte) (f : Frame) (h : classify b = .cycle f) : f.sound ∧ f.bytes = b := by
  obtain hd | hpass := classify_damaged_or_passesCheck b
  · rw [hd] at h; cases h
  rw [classify_of_passesCheck b hpass] at h
  obtain ⟨hlo, hhi, hcheck, hlen⟩ := hpass
  split at h
  · cases h
  next hkind =>
  split at h
  · cases h
  next hcount =>
  cases hwalk : walkSections (byteAt b 6).toNat ((b.take (b.length - 4)).drop 7) with
  | none => rw [hwalk] at h; cases h
  | some sections =>
    rw [hwalk] at h
    obtain rfl : { header := b.take 7, sections := sections } = f := by simpa using h
    obtain ⟨hn, hbytes, hsects⟩ := walkSections_sound _ _ _ hwalk
    have hself : withCheck (b.take (b.length - 4)) = b := (eq_of_beq hcheck).symm
    have hfull : ({ header := b.take 7, sections := sections } : Frame).bytes = b := by
      have htake : b.take 7 = (b.take (b.length - 4)).take 7 := by rw [List.take_take]; congr 1; omega
      rw [Frame.bytes, hbytes, htake, List.take_append_drop, hself]
    have hpos : (byteAt b 6).toNat ≠ 0 := fun h0 => hcount (.inl (BitVec.eq_of_toNat_eq h0))
    refine ⟨⟨?_, ?_, ?_, by rw [hfull]; exact hhi, ?_, ?_, ?_, hsects⟩, hfull⟩
    · simp; omega
    · rw [byteAt_take b 7 0 (by omega)]; simpa using hkind
    · rw [halfAt_take b 7 4 (by omega), hfull, hlen]
    · rw [byteAt_take b 7 6 (by omega)]; exact hn.symm
    · dsimp only; omega
    · dsimp only; omega

theorem classify_cycle_iff (b : List Byte) (f : Frame) : classify b = .cycle f ↔ f.sound ∧ f.bytes = b := by
  constructor
  · exact sound_of_classify_cycle b f
  · rintro ⟨hf, rfl⟩; exact f.classify_bytes hf

theorem kind_of_classify_other (b : List Byte) (h : classify b = .other) : byteAt b 0 ≠ 0x01 := by
  obtain hd | hpass := classify_damaged_or_passesCheck b
  · rw [hd] at h; cases h
  · intro hkind
    rw [classify_of_passesCheck b hpass, if_neg (by simp [hkind])] at h
    split at h
    · cases h
    · cases hw : walkSections (byteAt b 6).toNat ((b.take (b.length - 4)).drop 7) <;> rw [hw] at h <;> cases h

/-- R4: what has the kind of a CYCLE frame and is no sound one is damaged. -/
theorem classify_damaged_of_unsound (b : List Byte) (hkind : byteAt b 0 = 0x01) (h : ∀ f : Frame, f.sound → f.bytes ≠ b) :
    classify b = .damaged := by
  cases hc : classify b with
  | damaged => rfl
  | other => exact absurd hkind (kind_of_classify_other b hc)
  | cycle f =>
    obtain ⟨hf, hb⟩ := (classify_cycle_iff b f).mp hc
    exact absurd hb (h f hf)

theorem classify_damaged_of_count (b : List Byte) (hkind : byteAt b 0 = 0x01)
    (h : byteAt b 6 = 0 ∨ 48 < (byteAt b 6).toNat) : classify b = .damaged := by
  obtain hd | hpass := classify_damaged_or_passesCheck b
  · exact hd
  · rw [classify_of_passesCheck b hpass, if_neg (by simp [hkind]), if_pos h]

theorem classify_other_of_kind (b : List Byte) (h : passesCheck b) (hkind : byteAt b 0 ≠ 0x01) : classify b = .other := by
  rw [classify_of_passesCheck b h, if_pos hkind]

/-- R4: the walk over the bytes of some sections finds those sections or nothing. -/
theorem walkSections_flatMap (ss ts : List Sect) (n : Nat) (hs : ∀ x ∈ ss, x.id ≤ 255 ∧ x.payload.length ≤ 255)
    (h : walkSections n (ss.flatMap Sect.bytes) = some ts) : ts = ss := by
  induction ss generalizing n ts with
  | nil =>
    cases n with
    | zero => simpa [walkSections] using h.symm
    | succ n => simp [walkSections] at h
  | cons x ss ih =>
    obtain ⟨hid, hlen⟩ := hs x List.mem_cons_self
    cases n with
    | zero => simp [Sect.bytes, walkSections] at h
    | succ n =>
      have hl : (BitVec.ofNat 8 x.payload.length).toNat = x.payload.length := by simp; omega
      have hi : (BitVec.ofNat 8 x.id).toNat = x.id := by simp; omega
      simp only [List.flatMap_cons, Sect.bytes, List.cons_append, walkSections, hl, hi, List.drop_left, List.take_left] at h
      split at h
      · cases h
      · split at h
        · cases h
        · obtain ⟨rest, hrest, rfl⟩ := Option.map_eq_some_iff.mp h
          rw [ih rest n (fun y hy => hs y (List.mem_cons_of_mem x hy)) hrest]

/-- R4: bytes built like a CYCLE frame's, from sections with ids and lengths of one byte, are taken only as that frame. -/
theorem Frame.sound_of_bytes_eq (f g : Frame) (hlen : f.header.length = 7)
    (hs : ∀ x ∈ f.sections, x.id ≤ 255 ∧ x.payload.length ≤ 255) (hg : g.sound) (h : g.bytes = f.bytes) : f.sound := by
  have hsound := hg
  obtain ⟨hglen, _, _, _, _, _, _, hgs⟩ := hg
  have hheader : g.header = f.header := by rw [← g.bytes_take_header hglen, h, f.bytes_take_header hlen]
  have hwalk := walkSections_bytes g.sections hgs
  rw [← g.bytes_drop_header hglen, h, f.bytes_drop_header hlen] at hwalk
  have hsections : g.sections = f.sections := walkSections_flatMap _ _ _ hs hwalk
  obtain rfl : g = f := by cases g; cases f; simp_all
  exact hsound

/-! ## A damaged frame -/

theorem Station.outbound_damaged (frame : List Byte) (edges : List StopEdge) (s : Station) (ha : s.ring.active = true)
    (hc : classify frame = .damaged) : s.outbound frame edges = (s.countDamaged.sendSpur frame).stopEdges edges := by
  obtain ⟨hr, ht⟩ := s.ring.active_iff.mp ha
  simp [Station.outbound, hr, ht, hc]

theorem Station.inbound_damaged (frame : List Byte) (edges : List StopEdge) (s d : Station) (ha : s.ring.active = true)
    (hc : classify frame = .damaged) (hd : s.damagedReturn = d) :
    s.inbound frame edges = (d.countDamaged.sendLine frame).stopEdges edges := by
  obtain ⟨hr, ht⟩ := s.ring.active_iff.mp ha
  simp [Station.inbound, hr, ht, hc, hd]

theorem Station.damagedReturn_none (s : Station) (h : s.ring.inFlight = none) : s.damagedReturn = s := by
  simp [Station.damagedReturn, h]

theorem Station.damagedReturn_some (s : Station) (q : Half) (h : s.ring.inFlight = some q) :
    s.damagedReturn = Station.declareLost { s with ring := { s.ring with inFlight := none, passSeq := q } } := by
  simp [Station.damagedReturn, h]

/-- Settles O8. -/
theorem damagedFrameCountedAndForwarded : Obligations.DamagedFrameCountedAndForwarded := by
  refine ⟨fun frame edges s ha hc => ⟨?_, fun hnone => ?_, fun q d hq hd => ?_⟩, fun b => ⟨classify_damaged_of_check b,
    fun hlo hhi hcheck hlen => classify_other_of_kind b ⟨hlo, hhi, hcheck, hlen⟩, classify_damaged_of_count b,
    classify_damaged_of_unsound b, classify_cycle_iff b, kind_of_classify_other b⟩,
    fun f hlen hkind hs => ⟨?_, fun hcount => ?_⟩, checkPasses_iff, crc32_eq⟩
  · exact State.onStation_eq (Station.outbound_damaged frame edges s.toStation ha hc)
  · exact State.onStation_eq (Station.inbound_damaged frame edges s.toStation _ ha hc (Station.damagedReturn_none _ hnone))
  · subst hd
    exact State.onStation_eq (Station.inbound_damaged frame edges s.toStation _ ha hc (Station.damagedReturn_some _ q hq))
  · rintro ⟨x, hx, hid⟩
    refine classify_damaged_of_unsound _ (by rw [f.byteAt_bytes 0 (by omega), hkind]) fun g hg hb => ?_
    obtain ⟨_, _, _, _, _, _, _, hsects⟩ := f.sound_of_bytes_eq g hlen hs hg hb
    obtain ⟨hlo, hhi, _⟩ := hsects x hx
    omega
  · refine classify_damaged_of_unsound _ (by rw [f.byteAt_bytes 0 (by omega), hkind]) fun g hg hb => ?_
    obtain ⟨_, _, _, _, hn, _⟩ := f.sound_of_bytes_eq g hlen hs hg hb
    exact hcount hn

end Sys2Proof.Machine
end

section
/-!
Fields read out of bytes: a field that starts a list is itself, and one that stands behind others is the same field of the rest.
-/
namespace Sys2Proof

theorem byteAt_append_right (a b : List Byte) (o : Nat) (h : a.length ≤ o) : byteAt (a ++ b) o = byteAt b (o - a.length) := by
  simp only [byteAt, List.getD_eq_getElem?_getD, List.getElem?_append_right h]

theorem halfAt_append_right (a b : List Byte) (o : Nat) (h : a.length ≤ o) : halfAt (a ++ b) o = halfAt b (o - a.length) := by
  rw [halfAt, halfAt, byteAt_append_right a b _ h, byteAt_append_right a b _ (by omega), Nat.sub_add_comm h]

theorem wordAt_append_right (a b : List Byte) (o : Nat) (h : a.length ≤ o) : wordAt (a ++ b) o = wordAt b (o - a.length) := by
  simp only [wordAt, byteAt_append_right a b _ h, byteAt_append_right a b _ (Nat.le_add_right_of_le h), Nat.sub_add_comm h]

@[simp] theorem byteAt_cons_zero (x : Byte) (l : List Byte) : byteAt (x :: l) 0 = x := rfl

@[simp] theorem byteAt_cons_succ (x : Byte) (l : List Byte) (n : Nat) : byteAt (x :: l) (n + 1) = byteAt l n := rfl

@[simp] theorem halfAt_cons_succ (x : Byte) (l : List Byte) (n : Nat) : halfAt (x :: l) (n + 1) = halfAt l n := rfl

@[simp] theorem wordAt_cons_succ (x : Byte) (l : List Byte) (n : Nat) : wordAt (x :: l) (n + 1) = wordAt l n := rfl

@[simp] theorem halfAt_bytes16_append (v : Half) (l : List Byte) : halfAt (bytes16 v ++ l) 0 = v := join16_split v

@[simp] theorem wordAt_bytes32_append (v : Word) (l : List Byte) : wordAt (bytes32 v ++ l) 0 = v := join32_split v

@[simp] theorem halfAt_bytes16 (v : Half) : halfAt (bytes16 v) 0 = v := join16_split v

@[simp] theorem wordAt_bytes32 (v : Word) : wordAt (bytes32 v) 0 = v := join32_split v

@[simp] theorem byteAt_bytes16_append (v : Half) (l : List Byte) (n : Nat) : byteAt (bytes16 v ++ l) (n + 2) = byteAt l n := rfl

@[simp] theorem halfAt_bytes16_append_skip (v : Half) (l : List Byte) (n : Nat) : halfAt (bytes16 v ++ l) (n + 2) = halfAt l n := rfl

@[simp] theorem wordAt_bytes16_append (v : Half) (l : List Byte) (n : Nat) : wordAt (bytes16 v ++ l) (n + 2) = wordAt l n := rfl

@[simp] theorem byteAt_bytes32_append (v : Word) (l : List Byte) (n : Nat) : byteAt (bytes32 v ++ l) (n + 4) = byteAt l n := rfl

@[simp] theorem halfAt_bytes32_append (v : Word) (l : List Byte) (n : Nat) : halfAt (bytes32 v ++ l) (n + 4) = halfAt l n := rfl

@[simp] theorem wordAt_bytes32_append_skip (v : Word) (l : List Byte) (n : Nat) : wordAt (bytes32 v ++ l) (n + 4) = wordAt l n := rfl

@[simp] theorem byteAt_replicate (n o : Nat) : byteAt (List.replicate n 0x00) o = 0x00 := by
  simp only [byteAt, List.getD_eq_getElem?_getD, List.getElem?_replicate]
  split <;> rfl

end Sys2Proof
end

section
/-!
Requests on the wire, and the code lists (R24, R162).
-/
namespace Sys2Proof.Machine

/-! ## The payload of a request -/

theorem padTo_of_le (n : Nat) (l : List Byte) (h : l.length ≤ n) : padTo n l = l ++ List.replicate (n - l.length) 0x00 := by
  rw [padTo, List.take_of_length_le]
  simp only [List.length_append, List.length_replicate]
  omega

/-- R24: the payload with a kind, a tag and arguments. -/
def requestPayload (tag kind : Byte) (args : List Byte) : List Byte :=
  [kind, tag, 0x00, 0x00] ++ args ++ List.replicate (76 - args.length) 0x00

theorem encodeRequest_eq (tag : Byte) (i : Instr) (kind : Byte) (args : List Byte) (hi : requestParts i = some (kind, args))
    (h : args.length ≤ 76) : encodeRequest tag i = some (requestPayload tag kind args) := by
  rw [encodeRequest, hi, Option.map_some]
  dsimp only
  rw [padTo_of_le _ _ (by simp; omega)]
  have hlen : 80 - ([kind, tag, 0, 0] ++ args).length = 76 - args.length := by simp
  rw [hlen]
  rfl

theorem requestPayload_length (tag kind : Byte) (args : List Byte) (h : args.length ≤ 76) :
    (requestPayload tag kind args).length = 80 := by
  simp only [requestPayload, List.length_append, List.length_cons, List.length_nil, List.length_replicate]
  omega

/-- The fields of the arguments stand from offset 4. -/
theorem byteAt_requestPayload (tag kind : Byte) (args : List Byte) (o : Nat) :
    byteAt (requestPayload tag kind args) (o + 4) = byteAt (args ++ List.replicate (76 - args.length) 0x00) o := by
  rw [requestPayload, List.append_assoc]
  rfl

theorem halfAt_requestPayload (tag kind : Byte) (args : List Byte) (o : Nat) :
    halfAt (requestPayload tag kind args) (o + 4) = halfAt (args ++ List.replicate (76 - args.length) 0x00) o := by
  rw [requestPayload, List.append_assoc]
  rfl

theorem wordAt_requestPayload (tag kind : Byte) (args : List Byte) (o : Nat) :
    wordAt (requestPayload tag kind args) (o + 4) = wordAt (args ++ List.replicate (76 - args.length) 0x00) o := by
  rw [requestPayload, List.append_assoc]
  rfl

theorem kind_requestPayload (tag kind : Byte) (args : List Byte) : byteAt (requestPayload tag kind args) 0 = kind := rfl

/-- R24: a PROFILE FIELDS request carries all the bytes after its group. -/
theorem drop_requestPayload (tag kind p group : Byte) (values : List Byte) (h : values.length = 74) :
    (requestPayload tag kind ([p, group] ++ values)).drop 6 = values := by
  have hlen : 76 - ([p, group] ++ values).length = 0 := by simp [h]
  rw [requestPayload, hlen]
  simp

/-- R24, R162: what a well-formed request's kind and arguments decode to. -/
theorem decodeRequest_requestPayload (tag : Byte) (i : Instr) (kind : Byte) (args : List Byte)
    (hi : requestParts i = some (kind, args)) (hw : i.wellFormed = true) :
    args.length ≤ 76 ∧ decodeRequest (requestPayload tag kind args) = .request i := by
  cases i <;> simp only [requestParts, Option.some.injEq, Prod.mk.injEq, reduceCtorEq] at hi <;> obtain ⟨rfl, rfl⟩ := hi
  case profileFields p group values =>
    have hlen : values.length = 74 := of_decide_eq_true hw
    refine ⟨by simp [hlen], ?_⟩
    simp only [decodeRequest, kind_requestPayload, drop_requestPayload tag _ p group values hlen]
    rfl
  all_goals
    refine ⟨by simp, ?_⟩
    simp only [decodeRequest, kind_requestPayload, BitVec.reduceToNat, byteAt_requestPayload, halfAt_requestPayload,
      wordAt_requestPayload, List.append_assoc, List.cons_append, List.nil_append, byteAt_cons_zero, byteAt_cons_succ,
      halfAt_cons_succ, wordAt_cons_succ, byteAt_bytes16_append, halfAt_bytes16_append_skip, wordAt_bytes16_append,
      byteAt_bytes32_append, halfAt_bytes32_append, wordAt_bytes32_append_skip, halfAt_bytes16_append,
      wordAt_bytes32_append]

theorem requestParts_of_isRequest (i : Instr) (h : i.isRequest = true) : ∃ kind args, requestParts i = some (kind, args) := by
  cases i
  case powerOnReset | resetPinAssert | stopPinChange | outboundPass | returnPass | spinUpLimit | toolNotHome | rivetFeedLimit
    | dwellComplete => exact absurd h Bool.false_ne_true
  all_goals exact ⟨_, _, rfl⟩

/-! ## The kinds of payloads -/

theorem decodeRequest_eq_empty_iff (m : List Byte) : decodeRequest m = .empty ↔ byteAt m 0 = 0x00 := by
  rw [← BitVec.toNat_inj]
  unfold decodeRequest
  split
  case h_1 h => simp [h]
  case h_40 => simp_all
  all_goals next h => simp [h]

/-- The request kind codes, 00h for none among them. -/
def kindCodes : List Byte :=
  [0x00, 0x10, 0x11, 0x12, 0x20, 0x21, 0x22, 0x23, 0x30, 0x31, 0x32, 0x40, 0x41, 0x42, 0x43, 0x44, 0x45, 0x50, 0x51,
    0x52, 0x53, 0x54, 0x55, 0x56, 0x57, 0x58, 0x59, 0x60, 0x61, 0x62, 0x63, 0x70, 0x71, 0x80, 0x81, 0x82, 0x83, 0x90, 0x91]

theorem decodeRequest_eq_unknown_iff (m : List Byte) : decodeRequest m = .unknown ↔ byteAt m 0 ∉ kindCodes := by
  have hmem : byteAt m 0 ∈ kindCodes ↔ (byteAt m 0).toNat ∈ kindCodes.map BitVec.toNat :=
    ⟨List.mem_map_of_mem, fun h => by
      obtain ⟨code, hcode, heq⟩ := List.mem_map.mp h
      exact BitVec.eq_of_toNat_eq heq ▸ hcode⟩
  have hcodes : kindCodes.map BitVec.toNat =
      [0x00, 0x10, 0x11, 0x12, 0x20, 0x21, 0x22, 0x23, 0x30, 0x31, 0x32, 0x40, 0x41, 0x42, 0x43, 0x44, 0x45, 0x50, 0x51,
        0x52, 0x53, 0x54, 0x55, 0x56, 0x57, 0x58, 0x59, 0x60, 0x61, 0x62, 0x63, 0x70, 0x71, 0x80, 0x81, 0x82, 0x83, 0x90,
        0x91] := rfl
  rw [hmem, hcodes]
  unfold decodeRequest
  split
  case h_40 => simp_all
  all_goals next h => simp [h]

/-! ## Bytes and codes -/

theorem bytes16_toNat (v : Half) : (bytes16 v).map BitVec.toNat = [v.toNat % 256, v.toNat / 256] := by
  have hv := v.isLt
  simp only [bytes16, List.map_cons, List.map_nil, BitVec.extractLsb'_toNat, Nat.shiftRight_eq_div_pow, List.cons.injEq,
    and_true, true_and, Nat.reducePow, Nat.div_one]
  omega

theorem bytes32_toNat (v : Word) :
    (bytes32 v).map BitVec.toNat
      = [v.toNat % 256, v.toNat / 256 % 256, v.toNat / 65536 % 256, v.toNat / 16777216] := by
  have hv := v.isLt
  simp only [bytes32, List.map_cons, List.map_nil, BitVec.extractLsb'_toNat, Nat.shiftRight_eq_div_pow, List.cons.injEq,
    and_true, true_and, Nat.reducePow, Nat.div_one]
  omega

theorem Reason.comparatorByte_of_ne (why : Reason) (h : ∀ k, why ≠ .comparator k) : why.comparatorByte = 0x00 := by
  cases why
  case comparator k => exact absurd rfl (h k)
  all_goals rfl

theorem stageCode_drill (c : Cycle) (d : DrillWork) (h : c.work = .drill d) : stageCode (some c) = d.stage.code := by
  simp [stageCode, h]

theorem stageCode_set (c : Cycle) (w : SetWork) (h : c.work = .set w) : stageCode (some c) = w.stage.code := by
  simp [stageCode, h]

theorem profileStateCode_some (q : Profile) :
    (q.state = .loading → profileStateCode (some q) = 0x01) ∧ (q.state = .valid → profileStateCode (some q) = 0x02)
      ∧ (∀ why, q.state = .invalid why → profileStateCode (some q) = 0x03) := by
  refine ⟨fun h => ?_, fun h => ?_, fun why h => ?_⟩ <;> simp [profileStateCode, h]

/-- Settles O53. -/
theorem requestsSurviveTheWire : Obligations.RequestsSurviveTheWire := by
  refine ⟨fun i tag hreq hw => ?_, fun tag wire hwire => ?_, bytes16_toNat, bytes32_toNat,
    fun m => ⟨decodeRequest_eq_empty_iff m, decodeRequest_eq_unknown_iff m⟩,
    ⟨rfl, rfl, rfl, rfl, rfl, rfl, rfl, rfl, rfl, rfl, rfl⟩,
    ⟨rfl, fun k => ⟨rfl, rfl⟩, Reason.comparatorByte_of_ne, rfl, rfl, rfl, rfl, rfl, rfl, rfl, rfl, stageCode_drill,
      stageCode_set, rfl, rfl⟩,
    ⟨rfl, RoleCode.ofCode_above, rfl, profileStateCode_some, rfl⟩⟩
  · obtain ⟨kind, args, hparts⟩ := requestParts_of_isRequest i hreq
    obtain ⟨hlen, hdecode⟩ := decodeRequest_requestPayload tag i kind args hparts hw
    exact ⟨_, encodeRequest_eq tag i kind args hparts hlen, requestPayload_length tag kind args hlen, rfl, rfl, rfl, hdecode⟩
  · have hsent : ∀ i kind args, requestParts i = some (kind, args) → args.length ≤ 76 →
        encodeRequest tag i = wire kind args := fun i kind args hparts hlen =>
      (encodeRequest_eq tag i kind args hparts hlen).trans (hwire kind args).symm
    refine ⟨fun _ => ?_, ?_, ?_, fun _ _ _ _ => ?_, fun _ _ _ _ _ => ?_, fun _ => ?_, fun _ => ?_, fun _ _ _ _ => ?_,
      fun _ => ?_, fun _ _ => ?_, fun _ _ => ?_, fun p group values hv => ?_, fun _ _ _ _ => ?_,
      fun _ _ _ _ _ _ _ _ _ => ?_, fun _ => ?_, fun _ _ => ?_, fun _ _ _ _ _ _ _ _ _ _ _ _ => ?_, fun _ => ?_,
      fun _ => ?_, fun _ => ?_, fun _ _ => ?_, fun _ => ?_, fun _ => ?_, fun _ => ?_, fun _ => ?_, fun _ => ?_,
      fun _ _ _ _ => ?_, ?_, fun _ _ => ?_, fun _ _ _ => ?_, fun _ => ?_, ?_, ?_, fun _ => ?_, fun _ => ?_, ?_, ?_, ?_⟩
    case refine_12 => exact hsent _ _ _ rfl (by simp [hv])
    all_goals exact hsent _ _ _ rfl (by simp)

end Sys2Proof.Machine
end

section
/-!
What the READ requests answer (R43, R54, R55, R79, R101, R160, R166, R168): every field at its place.
-/
namespace Sys2Proof.Machine

/-! ## HOLE READ -/

theorem u16_toNat (v : Half) : u16 v.toNat = bytes16 v := by simp [u16]

theorem holeRead_above (index : Half) (s : Station) (h : 1023 < index.toNat) : holeRead index s = (s, .refused .badIndex) :=
  if_pos h

theorem holeRead_absent (index : Half) (s : Station) (h : index.toNat ≤ 1023) (hv : s.hole index.toNat = none) :
    holeRead index s = (s, .done (bytes16 index ++ List.replicate 40 0)) := by
  rw [holeRead, if_neg (by omega), hv]
  dsimp only
  rw [u16_toNat, padTo_of_le _ _ (by simp)]
  rfl

theorem holeRead_present (index : Half) (s : Station) (v : Hole) (h : index.toNat ≤ 1023) (hv : s.hole index.toNat = some v) :
    holeRead index s = (s, .done (holeBytes index.toNat v)) := by
  rw [holeRead, if_neg (by omega), hv]

theorem lastBytes_length (o : Option (CycleOutcome × Reason)) : (lastBytes o).length = 3 := by
  cases o <;> rfl

theorem holeBytes_length (i : Nat) (v : Hole) : (holeBytes i v).length = 42 := by
  simp [holeBytes, lastBytes_length]

/-- R43: the plan of a record in the answer of HOLE READ. -/
theorem holeBytes_plan (index : Half) (v : Hole) (d : List Byte) (hd : d = holeBytes index.toNat v) :
    halfAt d 0 = index ∧ byteAt d 2 = 0x01
      ∧ wordAt d 3 = BitVec.ofInt 32 v.x ∧ wordAt d 7 = BitVec.ofInt 32 v.t ∧ byteAt d 11 = v.face.code
      ∧ byteAt d 12 = profileByte v.drill ∧ byteAt d 13 = profileByte v.set
      ∧ wordAt d 14 = BitVec.ofInt 32 v.depth ∧ wordAt d 18 = BitVec.ofInt 32 v.stroke := by
  subst hd
  simp [holeBytes, um, u16_toNat, List.append_assoc]

/-- R43: the runtime fields of a record in the answer of HOLE READ. -/
theorem holeBytes_runtime (index : Half) (v : Hole) (d : List Byte) (hd : d = holeBytes index.toNat v) :
    byteAt d 22 = v.state.code ∧ byteAt d 23 = claimantByte v.claimant ∧ byteAt d 24 = BitVec.ofNat 8 v.attempts
      ∧ byteAt d 25 = entryByte v.entry
      ∧ (v.measured = none → byteAt d 26 = 0x00 ∧ wordAt d 27 = 0 ∧ wordAt d 31 = 0 ∧ wordAt d 35 = 0)
      ∧ (∀ m, v.measured = some m →
        byteAt d 26 = 0x01 ∧ wordAt d 27 = BitVec.ofInt 32 m.contact ∧ wordAt d 31 = BitVec.ofInt 32 m.breakthrough
          ∧ wordAt d 35 = BitVec.ofInt 32 m.grip)
      ∧ (v.last = none → byteAt d 39 = 0xFF ∧ byteAt d 40 = 0xFF ∧ byteAt d 41 = 0x00)
      ∧ (∀ o why, v.last = some (o, why) →
        byteAt d 39 = o.code ∧ byteAt d 40 = why.code ∧ byteAt d 41 = why.comparatorByte) := by
  subst hd
  refine ⟨?_, ?_, ?_, ?_, fun hm => ?_, fun m hm => ?_, fun hl => ?_, fun o why hl => ?_⟩
  · simp [holeBytes, um, u16_toNat, List.append_assoc]
  · simp [holeBytes, um, u16_toNat, List.append_assoc]
  · simp [holeBytes, um, u16_toNat, u8, List.append_assoc]
  · simp [holeBytes, um, u16_toNat, u8, List.append_assoc]
  · simp [holeBytes, um, u16_toNat, u8, hm, flagByte, List.append_assoc]
  · simp [holeBytes, um, u16_toNat, u8, hm, flagByte, List.append_assoc]
  · simp [holeBytes, um, u16_toNat, u8, hl, lastBytes, List.append_assoc]
  · simp [holeBytes, um, u16_toNat, u8, hl, lastBytes, List.append_assoc]

/-! ## HEAD READ -/

theorem claimedHole_eq (c : Option Claim) : claimedHole c = bytes16 (c.elim 0xFFFF fun c => BitVec.ofNat 16 c.hole) := by
  cases c <;> rfl

theorem claimXBytes_eq (c : Option Claim) : claimXBytes c = bytes32 (c.elim 0 fun c => BitVec.ofInt 32 c.claimX) := by
  cases c <;> rfl

theorem flatMap_bytes16_length (l : List Half) : (l.flatMap bytes16).length = 2 * l.length := by
  induction l with
  | nil => rfl
  | cons v l ih => simp only [List.flatMap_cons, List.length_append, bytes16_length, List.length_cons, ih]; omega

theorem halfAt_flatMap_bytes16 (l : List Half) (rest : List Byte) (k : Nat) (h : k < l.length) :
    halfAt (l.flatMap bytes16 ++ rest) (2 * k) = l[k] := by
  induction l generalizing k with
  | nil => simp at h
  | cons v l ih =>
    rw [List.flatMap_cons, List.append_assoc]
    cases k with
    | zero => simp
    | succ k => exact ih k (by simpa using h)

theorem queueBytes_length (q : List Nat) (h : q.length ≤ 8) : (queueBytes q).length = 16 := by
  rw [queueBytes, flatMap_bytes16_length]
  simp only [List.length_append, List.length_map, List.length_replicate]
  omega

/-- R79: the entries of a queue, oldest first, FFFFh past its length. -/
theorem halfAt_queueBytes (q : List Nat) (rest : List Byte) (k : Nat) (hq : q.length ≤ 8) (hk : k < 8) :
    halfAt (queueBytes q ++ rest) (2 * k) = (match q[k]? with
      | some i => BitVec.ofNat 16 i
      | none => 0xFFFF) := by
  have hlen : k < ((q.map fun i => BitVec.ofNat 16 i) ++ List.replicate (8 - q.length) (0xFFFF : Half)).length := by
    simp only [List.length_append, List.length_map, List.length_replicate]; omega
  rw [queueBytes, halfAt_flatMap_bytes16 _ _ _ hlen]
  by_cases hin : k < q.length
  · rw [List.getElem?_eq_getElem hin, List.getElem_append_left (by simpa using hin), List.getElem_map]
  · rw [List.getElem?_eq_none (by omega), List.getElem_append_right (by simpa using hin), List.getElem_replicate]

/-- R79: the bytes of HEAD READ before the queue. -/
theorem headBytes_front (h : HeadNo) (w : Head) (d : List Byte) (hd : d = headBytes h w) :
    byteAt d 0 = headByte h ∧ byteAt d 1 = w.state.code ∧ byteAt d 2 = w.cfg.kind.code ∧ byteAt d 3 = w.cfg.face.code
      ∧ byteAt d 4 = headByte w.cfg.group ∧ byteAt d 5 = w.cfg.startMode.code
      ∧ byteAt d 6 = causeByte w.faultCause
      ∧ (w.claim = none → halfAt d 7 = 0xFFFF ∧ wordAt d 9 = 0)
      ∧ (∀ c, w.claim = some c → halfAt d 7 = BitVec.ofNat 16 c.hole ∧ wordAt d 9 = BitVec.ofInt 32 c.claimX)
      ∧ byteAt d 13 = w.lastRefusal.code ∧ byteAt d 14 = BitVec.ofNat 8 w.settle
      ∧ byteAt d 15 = BitVec.ofNat 8 w.queue.length := by
  subst hd
  simp only [headBytes, u8, claimedHole_eq, claimXBytes_eq, List.append_assoc, List.cons_append, List.nil_append]
  refine ⟨rfl, rfl, rfl, rfl, rfl, rfl, rfl, fun hc => ?_, fun c hc => ?_, ?_, ?_, ?_⟩
  · simp [hc]
  · simp [hc]
  · simp
  · simp
  · simp

/-- R79: the bytes of HEAD READ from the drive statuses on, behind a queue of at most 8 entries. -/
theorem headBytes_back (h : HeadNo) (w : Head) (d : List Byte) (hd : d = headBytes h w) (hq : w.queue.length ≤ 8) :
    d.length = 59
      ∧ (∀ k, k < 8 → halfAt d (16 + 2 * k) = (match w.queue[k]? with
        | some i => BitVec.ofNat 16 i
        | none => 0xFFFF))
      ∧ byteAt d 32 = w.carriageStatus.code ∧ byteAt d 33 = w.toolStatus.code
      ∧ wordAt d 34 = BitVec.ofInt 32 w.cfg.offsetX ∧ wordAt d 38 = BitVec.ofInt 32 w.cfg.offsetT
      ∧ wordAt d 42 = BitVec.ofInt 32 w.cfg.window ∧ wordAt d 46 = BitVec.ofInt 32 w.cfg.settleBand
      ∧ byteAt d 50 = BitVec.ofNat 8 w.cfg.settleCount
      ∧ wordAt d 51 = BitVec.ofInt 32 w.cfg.shiftLimit ∧ wordAt d 55 = BitVec.ofInt 32 w.cfg.homeBand := by
  have hlen := queueBytes_length w.queue hq
  subst hd
  simp only [headBytes, u8, um, claimedHole_eq, claimXBytes_eq, List.append_assoc, List.cons_append, List.nil_append]
  refine ⟨by simp [hlen], fun k hk => ?_, ?_⟩
  · rw [Nat.add_comm]
    simp only [halfAt_cons_succ, halfAt_bytes16_append_skip, halfAt_bytes32_append]
    exact halfAt_queueBytes w.queue _ k hq hk
  · simp [byteAt_append_right, wordAt_append_right, hlen]

/-! ## CORRECTION READ -/

theorem pointBytes_fields (n : Nat) (p : Option Point) (d : List Byte) (hd : d = pointBytes n p) :
    d.length = 14 ∧ byteAt d 0 = BitVec.ofNat 8 n
      ∧ (p = none → byteAt d 1 = 0x00 ∧ wordAt d 2 = 0 ∧ wordAt d 6 = 0 ∧ wordAt d 10 = 0)
      ∧ (∀ q, p = some q →
        byteAt d 1 = 0x01 ∧ wordAt d 2 = BitVec.ofInt 32 q.x ∧ wordAt d 6 = BitVec.ofInt 32 q.dx
          ∧ wordAt d 10 = BitVec.ofInt 32 q.dt) := by
  subst hd
  cases p with
  | none =>
    refine ⟨rfl, rfl, fun _ => ?_, fun q hq => nomatch hq⟩
    simp [pointBytes, u8, um]
  | some p =>
    refine ⟨rfl, rfl, fun hq => (nomatch hq), fun q hq => ?_⟩
    obtain rfl : p = q := Option.some.inj hq
    simp [pointBytes, u8, um]

/-- R54: the point that CORRECTION READ names: of the staging table for 0, of the active points for 1. -/
def readPoint (which : Byte) (k : Half) (c : Correction) : Option Point :=
  if which = 0 then Table.find c.staging k.toNat else c.active[k.toNat]?

theorem correctionRead_above (which : Byte) (k : Half) (s : Station) (h : 2 < which.toNat) :
    correctionRead which k s = (s, .refused .badValue) := by
  unfold correctionRead
  dsimp only
  split
  · omega
  · omega
  · omega
  · rfl

theorem correctionRead_point (which : Byte) (k : Half) (s : Station) (h : which.toNat < 2) :
    correctionRead which k s =
      if 15 < k.toNat then (s, .refused .badIndex)
      else (s, .done (pointBytes s.correction.active.length (readPoint which k s.correction))) := by
  have hw : which = 0 ∨ which = 1 := by
    have : which.toNat = 0 ∨ which.toNat = 1 := by omega
    simpa [← BitVec.toNat_inj] using this
  obtain rfl | rfl := hw <;> rfl

theorem correctionRead_hole (k : Half) (s : Station) :
    correctionRead 2 k s =
      if 1023 < k.toNat then (s, .refused .badIndex)
      else
        match s.hole k.toNat with
        | none => (s, .refused .badIndex)
        | some v =>
          (s, .done (u8 s.correction.active.length ++ um (correctionAt s.correction.active v.x).dx
            ++ um (correctionAt s.correction.active v.x).dt ++ um (s.correctedPosition v).x ++ um (s.correctedPosition v).t)) := rfl

end Sys2Proof.Machine
end

section
/-!
PROFILE READ field by field (R95, R96, R101).
-/
namespace Sys2Proof.Machine

/-! ## The summary -/

/-- R101: a set of slots as a byte, one bit per key. -/
def slotsByte (keys : List Nat) : Byte := keys.foldl (fun (m : Byte) k => m ||| BitVec.ofNat 8 (2 ^ k)) 0

theorem getLsbD_foldl_slots (keys : List Nat) (m : Byte) (i : Nat) (hi : i < 8) :
    (keys.foldl (fun (m : Byte) k => m ||| BitVec.ofNat 8 (2 ^ k)) m).getLsbD i = (m.getLsbD i || keys.any (· == i)) := by
  induction keys generalizing m with
  | nil => simp
  | cons k keys ih =>
    have hbit : (BitVec.ofNat 8 (2 ^ k)).getLsbD i = (k == i) := by
      rw [BitVec.getLsbD_ofNat, Nat.testBit_two_pow]
      rw [Bool.eq_iff_iff]
      simp [hi]
    rw [List.foldl_cons, ih, BitVec.getLsbD_or, hbit, List.any_cons, Bool.or_assoc]

theorem getLsbD_slotsByte (keys : List Nat) (i : Nat) (hi : i < 8) : (slotsByte keys).getLsbD i = keys.any (· == i) := by
  rw [slotsByte, getLsbD_foldl_slots keys 0 i hi]
  simp

theorem profileSummary_none (p : Nat) : profileSummary p none = [BitVec.ofNat 8 p, 0x00, 0xFF, 0x00, 0x00, 0x00, 0x00] := rfl

theorem profileSummary_some (p : Nat) (q : Profile) :
    profileSummary p (some q) =
      [BitVec.ofNat 8 p, profileStateCode (some q), q.body.kind.code, flagByte q.clamped, invalidReasonCode (some q),
        slotsByte (q.body.layers.map fun e => e.1 - 1), slotsByte (q.comparators.map Prod.fst)] := rfl

theorem profileSummary_length (p : Nat) (q : Option Profile) : (profileSummary p q).length = 7 := by
  cases q <;> rfl

theorem byteAt_profileSummary_zero (p : Byte) (q : Option Profile) (l : List Byte) :
    byteAt (profileSummary p.toNat q ++ l) 0 = p := by
  cases q <;> simp [profileSummary_none, profileSummary_some]

/-- R101: the summary of a profile that is not EMPTY, in front of any data. -/
theorem profileSummary_fields (p : Nat) (q : Profile) (l d : List Byte) (hd : d = profileSummary p (some q) ++ l) :
    byteAt d 1 = profileStateCode (some q) ∧ byteAt d 2 = q.body.kind.code ∧ byteAt d 3 = flagByte q.clamped
      ∧ byteAt d 4 = invalidReasonCode (some q)
      ∧ (∀ i, i < 8 → (byteAt d 5).getLsbD i = q.body.layers.any fun e => e.1 - 1 == i)
      ∧ (∀ k, k < 8 → (byteAt d 6).getLsbD k = q.comparators.any fun e => e.1 == k) := by
  subst hd
  rw [profileSummary_some]
  refine ⟨rfl, rfl, rfl, rfl, fun i hi => ?_, fun k hk => ?_⟩
  · exact (getLsbD_slotsByte _ i hi).trans List.any_map
  · exact (getLsbD_slotsByte _ k hk).trans List.any_map

/-- The data that a part selects stands behind the 7 bytes of the summary. -/
theorem byteAt_behind_summary (p : Nat) (q : Option Profile) (l : List Byte) (o : Nat) :
    byteAt (profileSummary p q ++ l) (7 + o) = byteAt l o := by
  rw [byteAt_append_right _ _ _ (by rw [profileSummary_length]; omega), profileSummary_length, Nat.add_sub_cancel_left]

theorem halfAt_behind_summary (p : Nat) (q : Option Profile) (l : List Byte) (o : Nat) :
    halfAt (profileSummary p q ++ l) (7 + o) = halfAt l o := by
  rw [halfAt_append_right _ _ _ (by rw [profileSummary_length]; omega), profileSummary_length, Nat.add_sub_cancel_left]

theorem wordAt_behind_summary (p : Nat) (q : Option Profile) (l : List Byte) (o : Nat) :
    wordAt (profileSummary p q ++ l) (7 + o) = wordAt l o := by
  rw [wordAt_append_right _ _ _ (by rw [profileSummary_length]; omega), profileSummary_length, Nat.add_sub_cancel_left]

theorem drop_summary (p : Nat) (q : Option Profile) (l : List Byte) : (profileSummary p q ++ l).drop 7 = l :=
  List.drop_left' (profileSummary_length p q)

theorem length_behind_summary (p : Nat) (q : Option Profile) (l : List Byte) :
    (profileSummary p q ++ l).length = 7 + l.length := by
  rw [List.length_append, profileSummary_length]

/-! ## The parts -/

theorem profilePart_summary (q : Option Profile) : profilePart q 0x00 = some [] := rfl

theorem profilePart_group (q : Option Profile) (g : Nat) (h : g < 3) :
    profilePart q (g + 1) = some (fieldGroupBytes q g) := by
  rw [profilePart, if_neg (by omega), if_pos (by omega), Nat.add_sub_cancel]

theorem profilePart_layers (q : Option Profile) :
    profilePart q 0x10 =
      some (layerBytes q 1 ++ layerBytes q 2 ++ layerBytes q 3 ++ layerBytes q 4 ++ layerBytes q 5 ++ layerBytes q 6) := rfl

theorem profilePart_comparator (q : Option Profile) (k : Nat) (h : k ≤ 5) :
    profilePart q (0x20 + k) = some (comparatorBytes q k) := by
  rw [profilePart, if_neg (by omega), if_neg (by omega), if_neg (by omega), if_pos (by omega), Nat.add_sub_cancel_left]

/-- R101: the parts that PROFILE READ knows. -/
theorem profilePart_isSome_iff (q : Option Profile) (part : Nat) :
    (profilePart q part).isSome = true ↔ part ≤ 0x03 ∨ part = 0x10 ∨ (0x20 ≤ part ∧ part ≤ 0x25) := by
  unfold profilePart
  split
  next h => exact iff_of_true rfl (by omega)
  next h =>
    split
    next hgroup => exact iff_of_true rfl (by omega)
    next hgroup =>
      split
      next hlayers => exact iff_of_true rfl (by omega)
      next hlayers =>
        split
        next hslot => exact iff_of_true rfl (by omega)
        next hslot => exact iff_of_false nofun (by omega)

/-- R101: an EMPTY profile reports 00h for all that its part holds. -/
theorem profilePart_empty (part : Nat) (data : List Byte) (h : profilePart none part = some data) :
    data = List.replicate (if part ≤ 0x03 then 0 else if part = 0x10 then 48 else 14) 0x00 := by
  obtain hpart | hpart | ⟨hlo, hhi⟩ := (profilePart_isSome_iff none part).mp (Option.isSome_of_eq_some h)
  · rw [if_pos hpart]
    cases part with
    | zero => exact (Option.some.inj h).symm
    | succ g =>
      rw [profilePart_group none g (by omega)] at h
      exact (Option.some.inj h).symm
  · subst hpart
    exact (Option.some.inj h).symm
  · obtain ⟨k, rfl⟩ := Nat.exists_eq_add_of_le hlo
    rw [profilePart_comparator none k (by omega)] at h
    rw [if_neg (by omega), if_neg (by omega)]
    exact (Option.some.inj h).symm

theorem profileRead_above (p part : Byte) (s : Station) (h : 31 < p.toNat) : profileRead p part s = (s, .refused .badIndex) :=
  if_pos h

theorem profileRead_unknown (p part : Byte) (s : Station) (h : p.toNat ≤ 31)
    (hpart : profilePart (s.profile p.toNat) part.toNat = none) : profileRead p part s = (s, .refused .badValue) := by
  rw [profileRead, if_neg (by omega), hpart]

theorem profileRead_known (p part : Byte) (s : Station) (data : List Byte) (h : p.toNat ≤ 31)
    (hpart : profilePart (s.profile p.toNat) part.toNat = some data) :
    profileRead p part s = (s, .done (profileSummary p.toNat (s.profile p.toNat) ++ data)) := by
  rw [profileRead, if_neg (by omega), hpart]

/-! ## Field groups, layers and comparators -/

theorem DrillFields.groupBytes_zero (f : DrillFields) (b : List Byte) (hb : b = f.groupBytes 0) :
    b.length = 24 ∧ halfAt b 0 = BitVec.ofNat 16 f.spindleSpeed ∧ halfAt b 2 = BitVec.ofNat 16 f.spinUpLimit
      ∧ wordAt b 4 = BitVec.ofInt 32 f.approachSpeed ∧ wordAt b 8 = BitVec.ofInt 32 f.acceleration
      ∧ wordAt b 12 = BitVec.ofInt 32 f.clearance ∧ wordAt b 16 = BitVec.ofInt 32 f.rampMargin
      ∧ wordAt b 20 = BitVec.ofInt 32 f.retractSpeed := by
  subst hb
  simp [DrillFields.groupBytes, u16, um, List.append_assoc]

theorem DrillFields.groupBytes_one (f : DrillFields) (b : List Byte) (hb : b = f.groupBytes 1) :
    b.length = 32 ∧ halfAt b 0 = BitVec.ofNat 16 f.contactForce ∧ byteAt b 2 = BitVec.ofNat 8 f.contactCount
      ∧ wordAt b 3 = BitVec.ofInt 32 f.contactWindow ∧ wordAt b 7 = BitVec.ofInt 32 f.exitSpeed
      ∧ wordAt b 11 = BitVec.ofInt 32 f.exitWindow ∧ halfAt b 15 = BitVec.ofNat 16 f.breakthroughForce
      ∧ byteAt b 17 = BitVec.ofNat 8 f.breakthroughCount ∧ wordAt b 18 = BitVec.ofInt 32 f.lateLimit
      ∧ wordAt b 22 = BitVec.ofInt 32 f.overtravel ∧ wordAt b 26 = BitVec.ofInt 32 f.stackTolerance
      ∧ halfAt b 30 = BitVec.ofNat 16 f.overloadForce := by
  subst hb
  simp [DrillFields.groupBytes, u8, u16, um, List.append_assoc]

theorem DrillFields.groupBytes_two (f : DrillFields) (b : List Byte) (hb : b = f.groupBytes 2) :
    b.length = 8 ∧ halfAt b 0 = BitVec.ofNat 16 f.chipLoadTorque ∧ byteAt b 2 = BitVec.ofNat 8 f.torqueCount
      ∧ byteAt b 3 = BitVec.ofNat 8 f.maxPecks ∧ wordAt b 4 = BitVec.ofInt 32 f.resumeBackoff := by
  subst hb
  simp [DrillFields.groupBytes, u8, u16, um, List.append_assoc]

theorem SetFields.groupBytes_zero (f : SetFields) (b : List Byte) (hb : b = f.groupBytes 0) :
    b.length = 22 ∧ halfAt b 0 = BitVec.ofNat 16 f.feedLimit ∧ wordAt b 2 = BitVec.ofInt 32 f.advanceSpeed
      ∧ wordAt b 6 = BitVec.ofInt 32 f.acceleration ∧ wordAt b 10 = BitVec.ofInt 32 f.clearance
      ∧ wordAt b 14 = BitVec.ofInt 32 f.squeezeSpeed ∧ wordAt b 18 = BitVec.ofInt 32 f.retractSpeed := by
  subst hb
  simp [SetFields.groupBytes, u16, um, List.append_assoc]

theorem SetFields.groupBytes_one (f : SetFields) (b : List Byte) (hb : b = f.groupBytes 1) :
    b.length = 15 ∧ halfAt b 0 = BitVec.ofNat 16 f.contactForce ∧ byteAt b 2 = BitVec.ofNat 8 f.contactCount
      ∧ wordAt b 3 = BitVec.ofInt 32 f.gripWindow ∧ halfAt b 7 = BitVec.ofNat 16 f.setForce
      ∧ halfAt b 9 = BitVec.ofNat 16 f.holdForce ∧ halfAt b 11 = BitVec.ofNat 16 f.dwell
      ∧ halfAt b 13 = BitVec.ofNat 16 f.overloadForce := by
  subst hb
  simp [SetFields.groupBytes, u8, u16, um, List.append_assoc]

theorem SetFields.groupBytes_two (f : SetFields) (b : List Byte) (hb : b = f.groupBytes 2) :
    b.length = 13 ∧ wordAt b 0 = BitVec.ofInt 32 f.formedMin ∧ wordAt b 4 = BitVec.ofInt 32 f.formedMax
      ∧ wordAt b 8 = BitVec.ofInt 32 f.nominalGrip ∧ byteAt b 12 = flagByte f.acceptSuspect := by
  subst hb
  simp [SetFields.groupBytes, um, List.append_assoc]

theorem layerBytes_some (q : Profile) (i : Nat) :
    layerBytes (some q) i =
      um ((Table.find q.body.layers i).elim 0 Layer.thickness) ++ um ((Table.find q.body.layers i).elim 0 Layer.feed) := by
  rw [layerBytes]
  cases Table.find q.body.layers i <;> rfl

theorem layers_length (q : Profile) (b : List Byte) (hb : profilePart (some q) 0x10 = some b) : b.length = 48 := by
  rw [profilePart_layers] at hb
  obtain rfl := Option.some.inj hb
  simp [layerBytes_some]

/-- R101: the six layer slots, 8 bytes each. -/
theorem wordAt_layers (q : Profile) (b : List Byte) (hb : profilePart (some q) 0x10 = some b) (i : Nat) (hi : i < 6) :
    wordAt b (8 * i) = BitVec.ofInt 32 ((Table.find q.body.layers (i + 1)).elim 0 Layer.thickness)
      ∧ wordAt b (8 * i + 4) = BitVec.ofInt 32 ((Table.find q.body.layers (i + 1)).elim 0 Layer.feed) := by
  rw [profilePart_layers] at hb
  obtain rfl := Option.some.inj hb
  simp only [layerBytes_some, um, List.append_assoc]
  obtain rfl | rfl | rfl | rfl | rfl | rfl : i = 0 ∨ i = 1 ∨ i = 2 ∨ i = 3 ∨ i = 4 ∨ i = 5 := by omega
  all_goals simp

theorem comparatorBytes_absent (q : Profile) (k : Nat) (h : Table.find q.comparators k = none) :
    comparatorBytes (some q) k = List.replicate 14 0x00 := by
  rw [comparatorBytes, h]

theorem comparatorBytes_length (q : Profile) (k : Nat) : (comparatorBytes (some q) k).length = 14 := by
  rw [comparatorBytes]
  cases Table.find q.comparators k <;> rfl

theorem comparatorBytes_present (q : Profile) (k : Nat) (c : Comparator) (h : Table.find q.comparators k = some c)
    (b : List Byte) (hb : b = comparatorBytes (some q) k) :
    byteAt b 0 = c.source.code ∧ byteAt b 1 = c.condition.code ∧ wordAt b 2 = BitVec.ofInt 32 c.low
      ∧ wordAt b 6 = BitVec.ofInt 32 c.high ∧ halfAt b 10 = c.mask ∧ byteAt b 12 = BitVec.ofNat 8 c.count
      ∧ byteAt b 13 = c.action.code := by
  subst hb
  rw [comparatorBytes, h]
  simp [u8, um, List.append_assoc]

end Sys2Proof.Machine
end

section
/-!
The bytes of a result record, and the READ requests taken together (R24, R43, R54, R55, R79, R101, R160, R166, R168).
-/
namespace Sys2Proof.Machine

/-! ## The RESULT_SLOT payload -/

/-- R24: the RESULT_SLOT payload up to its latch, FILLED set. -/
def slotFront (r : Result) : List Byte :=
  [0x01, r.groupsPresent] ++ bytes32 r.jigId ++ u16 r.hole ++ u8 r.head.val
    ++ [r.operation.code, r.outcome.code, r.reason.code, r.reason.comparatorByte]
    ++ u8 r.attempt ++ bytes16 r.sequence ++ u16 r.notes

/-- R24: the group of the RESULT_SLOT payload, filled up with 00h. -/
def slotGroup (g : CycleGroup) : List Byte := groupBytes g ++ List.replicate (21 - (groupBytes g).length) 0x00

theorem slotFront_length (r : Result) : (slotFront r).length = 18 := rfl

theorem latchBytes_length (l : Option Latch) : (latchBytes l).length = 9 := by
  cases l <;> rfl

theorem groupBytes_length_le (g : CycleGroup) : (groupBytes g).length ≤ 21 := by
  cases g <;> simp [groupBytes]

theorem slotGroup_length (g : CycleGroup) : (slotGroup g).length = 21 := by
  have := groupBytes_length_le g
  simp only [slotGroup, List.length_append, List.length_replicate]
  omega

theorem slot_eq (r : Result) : 0x01 :: r.bytes = slotFront r ++ (latchBytes r.latch ++ slotGroup r.group) := by
  have hg := groupBytes_length_le r.group
  have hl := latchBytes_length r.latch
  have hfill : ∀ front : List Byte, front.length = 17 →
      padTo 47 (front ++ latchBytes r.latch ++ groupBytes r.group) = front ++ (latchBytes r.latch ++ slotGroup r.group) := by
    intro front hf
    have hlen : (front ++ latchBytes r.latch ++ groupBytes r.group).length = 26 + (groupBytes r.group).length := by
      simp only [List.length_append, hf, hl]
    have hzeros : 47 - (26 + (groupBytes r.group).length) = 21 - (groupBytes r.group).length := by omega
    rw [padTo_of_le _ _ (by omega), hlen, hzeros, slotGroup, List.append_assoc, List.append_assoc]
  rw [Result.bytes, hfill _ rfl]
  rfl

theorem slot_drop_front (r : Result) : (0x01 :: r.bytes).drop 18 = latchBytes r.latch ++ slotGroup r.group := by
  rw [slot_eq]
  exact List.drop_left' (slotFront_length r)

theorem slot_drop_latch (r : Result) : (0x01 :: r.bytes).drop 27 = slotGroup r.group := by
  calc (0x01 :: r.bytes).drop 27
      = ((0x01 :: r.bytes).drop 18).drop 9 := by rw [List.drop_drop]
    _ = slotGroup r.group := by rw [slot_drop_front]; exact List.drop_left' (latchBytes_length r.latch)

theorem halfAt_drop (l : List Byte) (n o : Nat) : halfAt (l.drop n) o = halfAt l (n + o) := by
  simp only [halfAt, byteAt_drop, Nat.add_assoc]

theorem wordAt_drop (l : List Byte) (n o : Nat) : wordAt (l.drop n) o = wordAt l (n + o) := by
  simp only [wordAt, byteAt_drop, Nat.add_assoc]

/-- R24: the front of the payload: what every record has. -/
theorem slotFront_fields (r : Result) (rest slot : List Byte) (hs : slot = slotFront r ++ rest) :
    byteAt slot 1 = r.groupsPresent ∧ wordAt slot 2 = r.jigId ∧ halfAt slot 6 = BitVec.ofNat 16 r.hole
      ∧ byteAt slot 8 = headByte r.head ∧ byteAt slot 9 = r.operation.code ∧ byteAt slot 10 = r.outcome.code
      ∧ byteAt slot 11 = r.reason.code ∧ byteAt slot 12 = r.reason.comparatorByte
      ∧ byteAt slot 13 = BitVec.ofNat 8 r.attempt ∧ halfAt slot 14 = r.sequence ∧ halfAt slot 16 = BitVec.ofNat 16 r.notes := by
  subst hs
  simp [slotFront, u8, u16, headByte, List.append_assoc]

theorem groupsPresent_bits (r : Result) :
    r.groupsPresent.getLsbD 0 = r.latch.isSome
      ∧ (r.groupsPresent.getLsbD 1 = true ↔ ∃ g, r.group = .drill g)
      ∧ (r.groupsPresent.getLsbD 2 = true ↔ ∃ g, r.group = .set g) ∧ r.groupsPresent.toNat < 8 := by
  rw [Result.groupsPresent]
  cases r.latch <;> cases r.group <;> simp

/-- R24: the latch of the payload. -/
theorem latchBytes_fields (l : Latch) (b : List Byte) (rest : List Byte) (hb : b = latchBytes (some l) ++ rest) :
    byteAt b 0 = BitVec.ofNat 8 l.comparator ∧ wordAt b 1 = BitVec.ofInt 32 l.setpoint
      ∧ wordAt b 5 = latchSourceField l.source := by
  subst hb
  simp [latchBytes, u8, um, List.append_assoc]

theorem latchSourceField_inRange (v : Int) (hlo : -2147483648 ≤ v) (hhi : v ≤ 2147483647) :
    latchSourceField v = BitVec.ofInt 32 v := if_pos ⟨hlo, hhi⟩

theorem slotGroup_none : slotGroup .none = List.replicate 21 0x00 := rfl

theorem slotGroup_drill (g : DrillGroup) (b : List Byte) (hb : b = slotGroup (.drill g)) :
    wordAt b 0 = BitVec.ofInt 32 g.contact ∧ wordAt b 4 = BitVec.ofInt 32 g.breakthrough
      ∧ wordAt b 8 = BitVec.ofInt 32 g.stack ∧ halfAt b 12 = BitVec.ofNat 16 g.peakForce
      ∧ halfAt b 14 = BitVec.ofNat 16 g.peakTorque ∧ byteAt b 16 = BitVec.ofNat 8 g.pecks
      ∧ halfAt b 17 = BitVec.ofNat 16 g.overTorque ∧ b.drop 19 = [0x00, 0x00] := by
  subst hb
  refine ⟨?_, ?_, ?_, ?_, ?_, ?_, ?_, rfl⟩ <;>
    simp [slotGroup, groupBytes, um, u8, u16, List.append_assoc]

theorem slotGroup_set (g : SetGroup) (b : List Byte) (hb : b = slotGroup (.set g)) :
    wordAt b 0 = BitVec.ofInt 32 g.contact ∧ wordAt b 4 = BitVec.ofInt 32 g.final
      ∧ wordAt b 8 = BitVec.ofInt 32 g.formed ∧ halfAt b 12 = BitVec.ofNat 16 g.peakForce
      ∧ halfAt b 14 = BitVec.ofNat 16 g.dwell ∧ halfAt b 16 = BitVec.ofInt 16 g.gripComp
      ∧ b.drop 18 = [0x00, 0x00, 0x00] := by
  subst hb
  refine ⟨?_, ?_, ?_, ?_, ?_, ?_, rfl⟩ <;>
    simp [slotGroup, groupBytes, um, u16, List.append_assoc]

/-! ## The payload by offset -/

theorem slot_front (r : Result) (slot : List Byte) (hs : slot = 0x01 :: r.bytes) :
    slot.length = 48
      ∧ ((byteAt slot 1).getLsbD 0 = r.latch.isSome
        ∧ ((byteAt slot 1).getLsbD 1 = true ↔ ∃ g, r.group = .drill g)
        ∧ ((byteAt slot 1).getLsbD 2 = true ↔ ∃ g, r.group = .set g) ∧ (byteAt slot 1).toNat < 8)
      ∧ wordAt slot 2 = r.jigId ∧ halfAt slot 6 = BitVec.ofNat 16 r.hole ∧ byteAt slot 8 = headByte r.head
      ∧ byteAt slot 9 = r.operation.code ∧ byteAt slot 10 = r.outcome.code ∧ byteAt slot 11 = r.reason.code
      ∧ byteAt slot 12 = r.reason.comparatorByte
      ∧ byteAt slot 13 = BitVec.ofNat 8 r.attempt ∧ halfAt slot 14 = r.sequence ∧ halfAt slot 16 = BitVec.ofNat 16 r.notes := by
  obtain ⟨hpresent, hfields⟩ := slotFront_fields r _ slot (hs.trans (slot_eq r))
  rw [hpresent]
  exact ⟨by simp [hs], groupsPresent_bits r, hfields⟩

theorem slot_latch_none (r : Result) (slot : List Byte) (hs : slot = 0x01 :: r.bytes) (hl : r.latch = none) :
    (slot.drop 18).take 9 = List.replicate 9 0x00 := by
  rw [hs, slot_drop_front, hl]
  exact List.take_left' rfl

theorem slot_latch_some (r : Result) (slot : List Byte) (hs : slot = 0x01 :: r.bytes) (l : Latch) (hl : r.latch = some l) :
    byteAt slot 18 = BitVec.ofNat 8 l.comparator ∧ wordAt slot 19 = BitVec.ofInt 32 l.setpoint
      ∧ (-2147483648 ≤ l.source → l.source ≤ 2147483647 → wordAt slot 23 = BitVec.ofInt 32 l.source) := by
  have hdrop : slot.drop 18 = latchBytes (some l) ++ slotGroup r.group := by rw [hs, slot_drop_front, hl]
  obtain ⟨hcomparator, hsetpoint, hsource⟩ := latchBytes_fields l _ _ hdrop
  rw [byteAt_drop] at hcomparator
  rw [wordAt_drop] at hsetpoint hsource
  exact ⟨hcomparator, hsetpoint, fun hlo hhi => hsource.trans (latchSourceField_inRange l.source hlo hhi)⟩

theorem slot_group_none (r : Result) (slot : List Byte) (hs : slot = 0x01 :: r.bytes) (hg : r.group = .none) :
    slot.drop 27 = List.replicate 21 0x00 := by
  rw [hs, slot_drop_latch, hg, slotGroup_none]

theorem slot_group_drill (r : Result) (slot : List Byte) (hs : slot = 0x01 :: r.bytes) (g : DrillGroup)
    (hg : r.group = .drill g) :
    wordAt slot 27 = BitVec.ofInt 32 g.contact ∧ wordAt slot 31 = BitVec.ofInt 32 g.breakthrough
      ∧ wordAt slot 35 = BitVec.ofInt 32 g.stack ∧ halfAt slot 39 = BitVec.ofNat 16 g.peakForce
      ∧ halfAt slot 41 = BitVec.ofNat 16 g.peakTorque ∧ byteAt slot 43 = BitVec.ofNat 8 g.pecks
      ∧ halfAt slot 44 = BitVec.ofNat 16 g.overTorque ∧ slot.drop 46 = [0x00, 0x00] := by
  have hdrop : slot.drop 27 = slotGroup (.drill g) := by rw [hs, slot_drop_latch, hg]
  have hfields := slotGroup_drill g _ hdrop
  rwa [wordAt_drop, wordAt_drop, wordAt_drop, halfAt_drop, halfAt_drop, byteAt_drop, halfAt_drop, List.drop_drop] at hfields

theorem slot_group_set (r : Result) (slot : List Byte) (hs : slot = 0x01 :: r.bytes) (g : SetGroup) (hg : r.group = .set g) :
    wordAt slot 27 = BitVec.ofInt 32 g.contact ∧ wordAt slot 31 = BitVec.ofInt 32 g.final
      ∧ wordAt slot 35 = BitVec.ofInt 32 g.formed ∧ halfAt slot 39 = BitVec.ofNat 16 g.peakForce
      ∧ halfAt slot 41 = BitVec.ofNat 16 g.dwell ∧ halfAt slot 43 = BitVec.ofInt 16 g.gripComp
      ∧ slot.drop 45 = [0x00, 0x00, 0x00] := by
  have hdrop : slot.drop 27 = slotGroup (.set g) := by rw [hs, slot_drop_latch, hg]
  have hfields := slotGroup_set g _ hdrop
  rwa [wordAt_drop, wordAt_drop, wordAt_drop, halfAt_drop, halfAt_drop, halfAt_drop, List.drop_drop] at hfields

end Sys2Proof.Machine
end

section
/-!
The READ requests as commands of the station (R24, R43, R54, R55, R79, R101, R160, R166, R168).
-/
namespace Sys2Proof.Machine

/-- A request that only reads answers DONE over the state as it stands. -/
theorem State.onRequest_read {f : Station → Station × Reply} {s : State} {data : List Byte} (ha : s.ring.active = true)
    (hf : f s.toStation = (s.toStation, .done data)) : s.onRequest f = .next (s.doneWith data) :=
  State.onRequest_done ha hf

/-! ## PROFILE READ, by part -/

theorem exec_profileRead_known (s : State) (p part : Byte) (data : List Byte) (ha : s.ring.active = true) (hp : p.toNat ≤ 31)
    (hdata : profilePart (s.profile p.toNat) part.toNat = some data) :
    exec (.profileRead p part) s = .next (s.doneWith (profileSummary p.toNat (s.profile p.toNat) ++ data)) :=
  State.onRequest_read ha (profileRead_known p part s.toStation data hp hdata)

theorem Profile.fieldGroupBytes_drill (q : Profile) (f : DrillFields) (layers : Table Layer) (h : q.body = .drill f layers)
    (g : Nat) : fieldGroupBytes (some q) g = f.groupBytes g := by
  rw [fieldGroupBytes, h]

theorem Profile.fieldGroupBytes_set (q : Profile) (f : SetFields) (h : q.body = .set f) (g : Nat) :
    fieldGroupBytes (some q) g = f.groupBytes g := by
  rw [fieldGroupBytes, h]

/-- R101: the answer to a field group part. -/
theorem eq_fieldGroupBytes (q : Option Profile) (part : Byte) (g : Nat) (hg : g < 3) (hpart : part.toNat = g + 1)
    (data : List Byte) (hdata : profilePart q part.toNat = some data) : data = fieldGroupBytes q g := by
  rw [hpart, profilePart_group q g hg] at hdata
  exact (Option.some.inj hdata).symm

theorem eq_comparatorBytes (q : Option Profile) (part : Byte) (k : Nat) (hpart : part.toNat = 0x20 + k)
    (data : List Byte) (hdata : profilePart q part.toNat = some data) : data = comparatorBytes q k := by
  have hk : k ≤ 5 := by
    have hknown := (profilePart_isSome_iff q part.toNat).mp (by rw [hdata]; rfl)
    rcases hknown with hsmall | hlayers | ⟨_, hslot⟩ <;> omega
  rw [hpart, profilePart_comparator q k hk] at hdata
  exact (Option.some.inj hdata).symm

/-- R95, R101: the answer for a drill profile's field groups. -/
theorem drillGroups_answer (p part : Byte) (q : Profile) (f : DrillFields) (layers : Table Layer)
    (hq : q.body = .drill f layers) (data d : List Byte) (hdata : profilePart (some q) part.toNat = some data)
    (hd : d = profileSummary p.toNat (some q) ++ data) :
    (part = 0x01 →
        d.length = 31 ∧ halfAt d 7 = BitVec.ofNat 16 f.spindleSpeed ∧ halfAt d 9 = BitVec.ofNat 16 f.spinUpLimit
          ∧ wordAt d 11 = BitVec.ofInt 32 f.approachSpeed ∧ wordAt d 15 = BitVec.ofInt 32 f.acceleration
          ∧ wordAt d 19 = BitVec.ofInt 32 f.clearance ∧ wordAt d 23 = BitVec.ofInt 32 f.rampMargin
          ∧ wordAt d 27 = BitVec.ofInt 32 f.retractSpeed)
      ∧ (part = 0x02 →
        d.length = 39 ∧ halfAt d 7 = BitVec.ofNat 16 f.contactForce ∧ byteAt d 9 = BitVec.ofNat 8 f.contactCount
          ∧ wordAt d 10 = BitVec.ofInt 32 f.contactWindow ∧ wordAt d 14 = BitVec.ofInt 32 f.exitSpeed
          ∧ wordAt d 18 = BitVec.ofInt 32 f.exitWindow ∧ halfAt d 22 = BitVec.ofNat 16 f.breakthroughForce
          ∧ byteAt d 24 = BitVec.ofNat 8 f.breakthroughCount ∧ wordAt d 25 = BitVec.ofInt 32 f.lateLimit
          ∧ wordAt d 29 = BitVec.ofInt 32 f.overtravel ∧ wordAt d 33 = BitVec.ofInt 32 f.stackTolerance
          ∧ halfAt d 37 = BitVec.ofNat 16 f.overloadForce)
      ∧ (part = 0x03 →
        d.length = 15 ∧ halfAt d 7 = BitVec.ofNat 16 f.chipLoadTorque ∧ byteAt d 9 = BitVec.ofNat 8 f.torqueCount
          ∧ byteAt d 10 = BitVec.ofNat 8 f.maxPecks ∧ wordAt d 11 = BitVec.ofInt 32 f.resumeBackoff) := by
  subst hd
  have hgroup : ∀ g, g < 3 → part.toNat = g + 1 → data = f.groupBytes g := fun g hg hpart =>
    (eq_fieldGroupBytes _ part g hg hpart data hdata).trans (q.fieldGroupBytes_drill f layers hq g)
  have hb := byteAt_behind_summary p.toNat (some q) data
  have hh := halfAt_behind_summary p.toNat (some q) data
  have hw := wordAt_behind_summary p.toNat (some q) data
  refine ⟨fun hpart => ?_, fun hpart => ?_, fun hpart => ?_⟩
  · obtain ⟨hlen, h0, h2, h4, h8, h12, h16, h20⟩ := f.groupBytes_zero data (hgroup 0 (by decide) (by rw [hpart]; rfl))
    exact ⟨by rw [length_behind_summary, hlen], (hh 0).trans h0, (hh 2).trans h2, (hw 4).trans h4, (hw 8).trans h8,
      (hw 12).trans h12, (hw 16).trans h16, (hw 20).trans h20⟩
  · obtain ⟨hlen, h0, h2, h3, h7, h11, h15, h17, h18, h22, h26, h30⟩ :=
      f.groupBytes_one data (hgroup 1 (by decide) (by rw [hpart]; rfl))
    exact ⟨by rw [length_behind_summary, hlen], (hh 0).trans h0, (hb 2).trans h2, (hw 3).trans h3, (hw 7).trans h7,
      (hw 11).trans h11, (hh 15).trans h15, (hb 17).trans h17, (hw 18).trans h18, (hw 22).trans h22, (hw 26).trans h26,
      (hh 30).trans h30⟩
  · obtain ⟨hlen, h0, h2, h3, h4⟩ := f.groupBytes_two data (hgroup 2 (by decide) (by rw [hpart]; rfl))
    exact ⟨by rw [length_behind_summary, hlen], (hh 0).trans h0, (hb 2).trans h2, (hb 3).trans h3, (hw 4).trans h4⟩

/-- R96, R101: the answer for a set profile's field groups. -/
theorem setGroups_answer (p part : Byte) (q : Profile) (f : SetFields) (hq : q.body = .set f) (data d : List Byte)
    (hdata : profilePart (some q) part.toNat = some data) (hd : d = profileSummary p.toNat (some q) ++ data) :
    (part = 0x01 →
        d.length = 29 ∧ halfAt d 7 = BitVec.ofNat 16 f.feedLimit ∧ wordAt d 9 = BitVec.ofInt 32 f.advanceSpeed
          ∧ wordAt d 13 = BitVec.ofInt 32 f.acceleration ∧ wordAt d 17 = BitVec.ofInt 32 f.clearance
          ∧ wordAt d 21 = BitVec.ofInt 32 f.squeezeSpeed ∧ wordAt d 25 = BitVec.ofInt 32 f.retractSpeed)
      ∧ (part = 0x02 →
        d.length = 22 ∧ halfAt d 7 = BitVec.ofNat 16 f.contactForce ∧ byteAt d 9 = BitVec.ofNat 8 f.contactCount
          ∧ wordAt d 10 = BitVec.ofInt 32 f.gripWindow ∧ halfAt d 14 = BitVec.ofNat 16 f.setForce
          ∧ halfAt d 16 = BitVec.ofNat 16 f.holdForce ∧ halfAt d 18 = BitVec.ofNat 16 f.dwell
          ∧ halfAt d 20 = BitVec.ofNat 16 f.overloadForce)
      ∧ (part = 0x03 →
        d.length = 20 ∧ wordAt d 7 = BitVec.ofInt 32 f.formedMin ∧ wordAt d 11 = BitVec.ofInt 32 f.formedMax
          ∧ wordAt d 15 = BitVec.ofInt 32 f.nominalGrip ∧ byteAt d 19 = flagByte f.acceptSuspect) := by
  subst hd
  have hgroup : ∀ g, g < 3 → part.toNat = g + 1 → data = f.groupBytes g := fun g hg hpart =>
    (eq_fieldGroupBytes _ part g hg hpart data hdata).trans (q.fieldGroupBytes_set f hq g)
  have hb := byteAt_behind_summary p.toNat (some q) data
  have hh := halfAt_behind_summary p.toNat (some q) data
  have hw := wordAt_behind_summary p.toNat (some q) data
  refine ⟨fun hpart => ?_, fun hpart => ?_, fun hpart => ?_⟩
  · obtain ⟨hlen, h0, h2, h6, h10, h14, h18⟩ := f.groupBytes_zero data (hgroup 0 (by decide) (by rw [hpart]; rfl))
    exact ⟨by rw [length_behind_summary, hlen], (hh 0).trans h0, (hw 2).trans h2, (hw 6).trans h6, (hw 10).trans h10,
      (hw 14).trans h14, (hw 18).trans h18⟩
  · obtain ⟨hlen, h0, h2, h3, h7, h9, h11, h13⟩ := f.groupBytes_one data (hgroup 1 (by decide) (by rw [hpart]; rfl))
    exact ⟨by rw [length_behind_summary, hlen], (hh 0).trans h0, (hb 2).trans h2, (hw 3).trans h3, (hh 7).trans h7,
      (hh 9).trans h9, (hh 11).trans h11, (hh 13).trans h13⟩
  · obtain ⟨hlen, h0, h4, h8, h12⟩ := f.groupBytes_two data (hgroup 2 (by decide) (by rw [hpart]; rfl))
    exact ⟨by rw [length_behind_summary, hlen], (hw 0).trans h0, (hw 4).trans h4, (hw 8).trans h8, (hb 12).trans h12⟩

/-- R101: the answer for the layer slots. -/
theorem layers_answer (p part : Byte) (q : Profile) (data d : List Byte) (hpart : part = 0x10)
    (hdata : profilePart (some q) part.toNat = some data) (hd : d = profileSummary p.toNat (some q) ++ data) :
    d.length = 55 ∧ ∀ i, i < 6 →
      (∀ l, Table.find q.body.layers (i + 1) = some l →
          wordAt d (7 + 8 * i) = BitVec.ofInt 32 l.thickness ∧ wordAt d (11 + 8 * i) = BitVec.ofInt 32 l.feed)
        ∧ (Table.find q.body.layers (i + 1) = none → wordAt d (7 + 8 * i) = 0 ∧ wordAt d (11 + 8 * i) = 0) := by
  subst hd hpart
  refine ⟨by rw [length_behind_summary, layers_length q data hdata], fun i hi => ?_⟩
  obtain ⟨hthickness, hfeed⟩ := wordAt_layers q data hdata i hi
  have hat : 11 + 8 * i = 7 + (8 * i + 4) := by omega
  rw [hat, wordAt_behind_summary, wordAt_behind_summary, hthickness, hfeed]
  exact ⟨fun l hl => by rw [hl]; exact ⟨rfl, rfl⟩, fun hl => by rw [hl]; exact ⟨rfl, rfl⟩⟩

/-- R101: the answer for a comparator slot. -/
theorem comparator_answer (p part : Byte) (q : Profile) (k : Nat) (data d : List Byte) (hpart : part.toNat = 0x20 + k)
    (hdata : profilePart (some q) part.toNat = some data) (hd : d = profileSummary p.toNat (some q) ++ data) :
    d.length = 21
      ∧ (Table.find q.comparators k = none → d.drop 7 = List.replicate 14 0x00)
      ∧ (∀ c, Table.find q.comparators k = some c →
        byteAt d 7 = c.source.code ∧ byteAt d 8 = c.condition.code ∧ wordAt d 9 = BitVec.ofInt 32 c.low
          ∧ wordAt d 13 = BitVec.ofInt 32 c.high ∧ halfAt d 17 = c.mask ∧ byteAt d 19 = BitVec.ofNat 8 c.count
          ∧ byteAt d 20 = c.action.code) := by
  subst hd
  have hslot := eq_comparatorBytes (some q) part k hpart data hdata
  have hb := byteAt_behind_summary p.toNat (some q) data
  have hh := halfAt_behind_summary p.toNat (some q) data
  have hw := wordAt_behind_summary p.toNat (some q) data
  refine ⟨by rw [length_behind_summary, hslot, comparatorBytes_length], fun hc => ?_, fun c hc => ?_⟩
  · rw [drop_summary, hslot, comparatorBytes_absent q k hc]
  · obtain ⟨h0, h1, h2, h6, h10, h12, h13⟩ := comparatorBytes_present q k c hc data hslot
    exact ⟨(hb 0).trans h0, (hb 1).trans h1, (hw 2).trans h2, (hw 6).trans h6, (hh 10).trans h10, (hb 12).trans h12,
      (hb 13).trans h13⟩

/-- R101: the answer for an EMPTY profile. -/
theorem empty_answer (p part : Byte) (data d : List Byte) (hdata : profilePart none part.toNat = some data)
    (hd : d = profileSummary p.toNat none ++ data) :
    byteAt d 1 = 0x00 ∧ byteAt d 2 = 0xFF
      ∧ d.drop 3 = List.replicate (if part.toNat ≤ 0x03 then 4 else if part.toNat = 0x10 then 52 else 18) 0x00 := by
  subst hd
  rw [profilePart_empty part.toNat data hdata, profileSummary_none]
  refine ⟨rfl, rfl, ?_⟩
  by_cases hgroup : part.toNat ≤ 0x03
  · simp only [if_pos hgroup]
    rfl
  · by_cases hlayers : part.toNat = 0x10
    · simp only [if_neg hgroup, if_pos hlayers]
      rfl
    · simp only [if_neg hgroup, if_neg hlayers]
      rfl

/-! ## CORRECTION READ at a hole -/

theorem correctionRead_hole_none (k : Half) (s : Station) (h : 1023 < k.toNat ∨ s.hole k.toNat = none) :
    correctionRead 2 k s = (s, .refused .badIndex) := by
  rw [correctionRead_hole]
  split
  next => rfl
  next hk =>
    rw [h.resolve_left hk]

theorem correctionRead_hole_some (k : Half) (s : Station) (v : Hole) (hk : k.toNat ≤ 1023) (hv : s.hole k.toNat = some v) :
    correctionRead 2 k s =
      (s, .done (u8 s.correction.active.length ++ um (correctionAt s.correction.active v.x).dx
        ++ um (correctionAt s.correction.active v.x).dt ++ um (s.correctedPosition v).x ++ um (s.correctedPosition v).t)) := by
  rw [correctionRead_hole, if_neg (by omega), hv]

end Sys2Proof.Machine
end

section
/-!
Every READ answers and changes nothing (O52).
-/
namespace Sys2Proof.Machine

/-- Settles O52. -/
theorem readsAnswerAndChangeNothing : Obligations.ReadsAnswerAndChangeNothing := by
  refine ⟨fun s index ha => ⟨fun h => ?_, fun h hv => ?_, fun v h hv => ?_⟩, fun s h w ha hw => ?_,
    fun s p part known ha hknown => ⟨fun hp => ?_, fun hp hno => ?_, fun hp hyes => ?_⟩,
    fun s which k present ha hpresent => ⟨fun hw => ?_, fun hw hk => ?_, fun hw hk => ?_, fun hw hk => ?_,
      fun v hw hk hv => ?_⟩,
    fun s k ha => ⟨fun hk => ?_, fun r hr => ?_⟩, fun r slot hs => ?_,
    fun s ha => ⟨State.onRequest_read ha rfl, State.onRequest_read ha rfl⟩⟩
  -- HOLE READ
  · exact State.onRequest_refused ha (holeRead_above index s.toStation h)
  · exact State.onRequest_read ha (holeRead_absent index s.toStation h hv)
  · obtain ⟨h0, h2, h3, h7, h11, h12, h13, h14, h18⟩ := holeBytes_plan index v _ rfl
    obtain ⟨h22, h23, h24, h25, hmeasured⟩ := holeBytes_runtime index v _ rfl
    exact ⟨holeBytes index.toNat v, State.onRequest_read ha (holeRead_present index s.toStation v h hv),
      holeBytes_length _ v, h0, h2, h3, h7, h11, h12, h13, h14, h18, h22, h23, h24,
      h25.trans (by rcases v.entry with _ | _ | _ <;> rfl), hmeasured⟩
  -- HEAD READ
  · subst hw
    obtain ⟨h0, h1, h2, h3, h4, h5, h6, hnone, hclaim, h13, h14, h15⟩ := headBytes_front h (s.head h) _ rfl
    exact ⟨headBytes h (s.head h), State.onRequest_read ha (onHead_headByte h _ s.toStation), h0, h1, h2, h3, h4, h5, h6,
      hnone, hclaim, h13, h14, h15, headBytes_back h (s.head h) _ rfl⟩
  -- PROFILE READ
  · exact State.onRequest_refused ha (profileRead_above p part s.toStation hp)
  · refine State.onRequest_refused ha (profileRead_unknown p part s.toStation hp ?_)
    rw [← Option.not_isSome_iff_eq_none, profilePart_isSome_iff]
    simpa [hknown, ← BitVec.toNat_inj] using hno
  · have hpart : (profilePart (s.profile p.toNat) part.toNat).isSome = true := by
      rw [profilePart_isSome_iff]
      simpa [hknown, ← BitVec.toNat_inj] using hyes
    obtain ⟨data, hdata⟩ := Option.isSome_iff_exists.mp hpart
    refine ⟨_, exec_profileRead_known s p part data ha hp hdata, byteAt_profileSummary_zero p _ data, fun hq => ?_,
      fun q hq => ?_⟩
    · rw [hq] at hdata ⊢
      simpa [← BitVec.toNat_inj] using empty_answer p part data _ hdata rfl
    · rw [hq] at hdata ⊢
      obtain ⟨h1, h2, h3, h4, hlayers, hcomparators⟩ := profileSummary_fields p.toNat q data _ rfl
      refine ⟨h1, h2.trans ?_, h3, h4.trans ?_, hlayers, hcomparators, fun hzero => ?_,
        fun f layers hf => drillGroups_answer p part q f layers hf data _ hdata rfl,
        fun f hf => setGroups_answer p part q f hf data _ hdata rfl,
        fun hten => layers_answer p part q data _ hten hdata rfl,
        fun k hk => comparator_answer p part q k data _ hk hdata rfl⟩
      · cases q.body <;> rfl
      · rw [invalidReasonCode]
        cases q.state <;> rfl
      · subst hzero
        obtain rfl := Option.some.inj hdata
        rfl
  -- CORRECTION READ
  · exact State.onRequest_refused ha (correctionRead_above which k s.toStation hw)
  · exact State.onRequest_refused ha ((correctionRead_point which k s.toStation hw).trans (if_pos hk))
  · exact ⟨_, State.onRequest_read ha ((correctionRead_point which k s.toStation hw).trans (if_neg (by omega))),
      pointBytes_fields _ present _ (by rw [hpresent]; rfl)⟩
  · subst hw
    exact State.onRequest_refused ha (correctionRead_hole_none k s.toStation hk)
  · subst hw
    refine ⟨_, State.onRequest_read ha (correctionRead_hole_some k s.toStation v hk hv), by simp, ?_⟩
    simp [u8, um, Station.correctedPosition, List.append_assoc]
  -- RESULT READ
  · refine State.onRequest_refused ha ?_
    rw [resultRead, List.getElem?_eq_none hk]
  · refine State.onRequest_read ha ?_
    rw [resultRead, hr]
    rfl
  -- The RESULT_SLOT payload
  · obtain ⟨hlen, hbits, h2, h6, h8, h9, h10, h11, h12, h13, h14, h16⟩ := slot_front r slot hs
    refine ⟨hlen, hbits, h2, h6, h8, h9, h10, h11, h12.trans ?_, h13, h14, h16, slot_latch_none r slot hs,
      slot_latch_some r slot hs, slot_group_none r slot hs, slot_group_drill r slot hs, slot_group_set r slot hs⟩
    cases r.reason <;> rfl

end Sys2Proof.Machine
end

section
/-!
The requests of a jig session and of the hole table (R26 to R28, R31 to R33, R42), with the completeness test that they make
(R44).
-/
namespace Sys2Proof.Machine

/-! ## The completeness test -/

/-- R44: the test sets the mark and raises JIG_COMPLETE when every record is terminal, and raises it at its first pass alone. -/
theorem Station.completenessTest_eq (s : Station) :
    s.completenessTest =
      { s with
        table := { s.table with complete := s.table.complete || s.table.holes.all fun e => e.2.terminal }
        faults := if s.table.complete = false ∧ (s.table.holes.all fun e => e.2.terminal) = true
          then s.faults.raise .jigComplete else s.faults } := by
  unfold Station.completenessTest
  by_cases hpass : s.table.complete = false ∧ (s.table.holes.all fun e => e.2.terminal) = true
  · obtain ⟨hmark, hall⟩ := hpass
    simp [hmark, hall, Station.raise]
  · have hmark : (s.table.complete || s.table.holes.all fun e => e.2.terminal) = s.table.complete := by
      cases hc : s.table.complete
      · simpa [hc] using hpass
      · rfl
    rw [if_neg hpass, if_neg hpass, hmark]

/-- R44: the test at a change of a record, made while the jig is WORKING. -/
theorem Station.completenessIfWorking_eq (s : Station) :
    s.completenessIfWorking =
      { s with
        table :=
          { s.table with
            complete := s.table.complete || (s.table.jig == .working && s.table.holes.all fun e => e.2.terminal) }
        faults := if s.table.jig = .working ∧ s.table.complete = false ∧ (s.table.holes.all fun e => e.2.terminal) = true
          then s.faults.raise .jigComplete else s.faults } := by
  unfold Station.completenessIfWorking
  by_cases hjig : s.table.jig = .working
  · rw [if_pos hjig, Station.completenessTest_eq]
    simp only [hjig, beq_self_eq_true, Bool.true_and, true_and]
  · have hbeq : (s.table.jig == .working) = false := by simpa using hjig
    rw [if_neg hjig, if_neg (fun h => hjig h.1), hbeq, Bool.false_and, Bool.or_false]

/-- R34: the terminal states. -/
theorem Hole.terminal_iff (v : Hole) : v.terminal = true ↔
    v.state = .set ∨ v.state = .rejected ∨ v.state = .skipped ∨ ((v.state = .drilled ∨ v.state = .suspect) ∧ v.set = none) := by
  unfold Hole.terminal
  cases v.state <;> simp

/-! ## HOLE SKIP -/

/-- R42: HOLE SKIP does what the checks of its rule say, in their order, on a record that is present. -/
theorem holeSkip_present (index : Half) (s : State) (v : Hole) (hv : s.hole index.toNat = some v) :
    holeSkip index s.toStation = answered (firstFailing (holeSkipChecks index s))
      (s.putHole index.toNat { v with state := .skipped }).completenessIfWorking s.toStation := by
  simp only [holeSkip, holeSkipChecks, answered_cons, answered_nil, hv, decide_eq_true_eq]
  refine ite_congr rfl (fun _ => rfl) fun _ => ?_
  by_cases hindex : 1023 < index.toNat
  · simp [hindex]
  · cases hclaim : v.claimant <;> simp [hindex, hclaim]

/-- R42: HOLE SKIP of a record that is absent is refused. -/
theorem holeSkip_absent (index : Half) (s : State) (u : Station) (hv : s.hole index.toNat = none) :
    holeSkip index s.toStation = answered (firstFailing (holeSkipChecks index s)) u s.toStation := by
  simp only [holeSkip, holeSkipChecks, answered_cons, hv, decide_eq_true_eq]
  refine ite_congr rfl (fun _ => rfl) fun _ => ?_
  simp

/-- Settles O34: by the checks of R42, on a record that is present or absent. -/
theorem holeSkipTakesTheHoleOut : Obligations.HoleSkipTakesTheHoleOut := by
  refine ⟨fun index s ha => ⟨fun hpass v u hv hu => ?_, fun why hfail => ?_⟩, Hole.terminal_iff⟩
  · subst hu
    have hdone := (State.onRequest_answered ha (holeSkip_present index s v hv)).1 hpass
    rwa [Station.completenessIfWorking_eq] at hdone
  · cases hv : s.hole index.toNat with
    | none => exact (State.onRequest_answered ha (holeSkip_absent index s s.toStation hv)).2 why hfail
    | some v => exact (State.onRequest_answered ha (holeSkip_present index s v hv)).2 why hfail

/-! ## Jig sessions -/

theorem Station.setHead_head (s : Station) (h : HeadNo) : s.setHead h (s.head h) = s := by
  simp [Station.setHead, Station.head]

/-- R65: the IDLE head with entries, as a change of that head. -/
theorem Station.seekIfWork_eq_modHead (s : Station) (h : HeadNo) :
    s.seekIfWork h = s.modHead h fun w =>
      if w.state = .idle ∧ w.queue ≠ [] ∧ s.table.jig = .working ∧ s.ring.halt = false then { w with state := .seeking }
      else w := by
  simp only [Station.seekIfWork, Station.modHead]
  split
  · rfl
  · exact (s.setHead_head h).symm

/-- R65: the SEEKING head with no entries, as a change of that head. -/
theorem Station.idleIfEmpty_eq_modHead (s : Station) (h : HeadNo) :
    s.idleIfEmpty h = s.modHead h (Head.idled (s.rest .idle)) := by
  simp only [Station.idleIfEmpty, Station.modHead, Head.idled]
  split
  · rfl
  · exact (s.setHead_head h).symm

/-- R65: a head whose queue has just been emptied. -/
theorem Head.idled_noEntries (next : HeadState) (w : Head) :
    ({ w with queue := [] } : Head).idled next
      = { w with queue := [], state := if w.state = .seeking then next else w.state } := by
  unfold Head.idled
  by_cases hw : w.state = .seeking
  · simp [hw]
  · simp [hw]

theorem Station.eachHead_seekIfWork (s : Station) :
    s.eachHead Station.seekIfWork =
      { s with
        heads := s.heads.map fun w =>
          if w.state = .idle ∧ w.queue ≠ [] ∧ s.table.jig = .working ∧ s.ring.halt = false then { w with state := .seeking }
          else w } :=
  Station.eachHead_eq_map _ _ s fun h hs => Station.seekIfWork_eq_modHead { s with heads := hs } h

theorem Station.eachHead_idleIfEmpty (s : Station) :
    s.eachHead Station.idleIfEmpty = { s with heads := s.heads.map (Head.idled (s.rest .idle)) } :=
  Station.eachHead_eq_map _ _ s fun h hs => Station.idleIfEmpty_eq_modHead { s with heads := hs } h

/-- R28: some head holds a claim. -/
theorem Station.someClaim_true (s : Station) : s.someClaim (fun _ => true) = allFour.any fun h => (s.head h).claim.isSome := by
  have hfree : s.someClaim (fun _ => true) = !s.heads.all fun w => w.claim.isNone := by
    unfold Station.someClaim
    congr 2
    funext w
    cases w.claim <;> rfl
  rw [hfree]
  simp [Four.all, allFour, Station.head, Four.get, Bool.or_assoc]

/-- R26: JIG LOAD. -/
theorem jigLoad_eq (id : Word) (s : State) :
    jigLoad id s.toStation = answered (firstFailing [(decide (s.table.jig = .working), .state)])
      { s.toStation with
        table := { jig := .loading, jigId := id, complete := false, holes := [], halfA := none }
        heads := s.heads.map fun w => { w with queue := [] } } s.toStation := by
  simp only [jigLoad, answered_cons, answered_nil, decide_eq_true_eq]
  rfl

/-- R27, R44, R65: JIG START. -/
theorem jigStart_eq (s : State) :
    jigStart s.toStation = answered (firstFailing (jigStartChecks s))
      { s.toStation with
        table :=
          { s.table with
            jig := .working, halfA := none
            complete := s.table.complete || s.table.holes.all fun e => e.2.terminal }
        heads := s.heads.map fun w =>
          if w.state = .idle ∧ w.queue ≠ [] ∧ s.ring.halt = false then { w with state := .seeking } else w
        faults := if s.table.complete = false ∧ (s.table.holes.all fun e => e.2.terminal) = true
          then s.faults.raise .jigComplete else s.faults } s.toStation := by
  simp only [jigStart, jigStartChecks, answered_cons, answered_nil, decide_eq_true_eq, Station.completenessTest_eq,
    Station.eachHead_seekIfWork, true_and]

/-- R28, R65, R64: JIG RELEASE. -/
theorem jigRelease_eq (s : State) :
    jigRelease s.toStation = answered (firstFailing (jigReleaseChecks s))
      { s.toStation with
        table := { s.table with jig := .released }
        heads := s.heads.map fun w =>
          { w with
            queue := []
            state := if w.state = .seeking then (if s.ring.halt then .halted else .idle) else w.state } } s.toStation := by
  simp only [jigRelease, jigReleaseChecks, answered_cons, answered_nil, Station.someClaim_true, Bool.or_eq_true,
    decide_eq_true_eq, Station.eachHead_idleIfEmpty]
  refine ite_congr rfl (fun _ => rfl) fun _ => ?_
  have hheads : (s.heads.map fun w => { w with queue := [] }).map (Head.idled (s.rest .idle))
      = s.heads.map fun w => { w with queue := [], state := if w.state = .seeking then s.rest .idle else w.state } := by
    simp only [Four.map, Head.idled_noEntries]
  exact congrArg (fun hs => (({ s.toStation with table := { s.table with jig := .released }, heads := hs } : Station),
    Reply.done [])) hheads

/-- Settles O32: each of the three requests does what its checks say. -/
theorem jigSessionOpensStartsAndEnds : Obligations.JigSessionOpensStartsAndEnds := by
  refine ⟨fun id s ha => ?_, fun s ha => ?_⟩
  · obtain ⟨hdone, hrefused⟩ := State.onRequest_answered ha (jigLoad_eq id s)
    exact ⟨fun h => hdone (by simp [firstFailing, h]), fun h => hrefused .state (by simp [firstFailing, h])⟩
  · obtain ⟨hstart, hnoStart⟩ := State.onRequest_answered ha (jigStart_eq s)
    obtain ⟨hrelease, hnoRelease⟩ := State.onRequest_answered ha (jigRelease_eq s)
    exact ⟨hstart, hnoStart, hrelease, hnoRelease⟩

/-! ## HOLE WRITE A and HOLE WRITE B -/

theorem Face.ofCode_code (f : Face) : Face.ofCode f.code = some f := by cases f <;> rfl

theorem Face.code_le (f : Face) : f.code.toNat ≤ 2 := by cases f <;> decide

theorem Face.ofCode_above (b : Byte) (h : 2 < b.toNat) : Face.ofCode b = none := by
  unfold Face.ofCode
  split
  case h_4 => rfl
  all_goals omega

/-- R24: a byte is the code of a face, or above the codes. -/
theorem face_cases (b : Byte) : 2 < b.toNat ∨ ∃ f : Face, b = f.code := by
  by_cases h : 2 < b.toNat
  · exact .inl h
  · have hb : b.toNat = 0 ∨ b.toNat = 1 ∨ b.toNat = 2 := by omega
    right
    obtain hb | hb | hb := hb
    · exact ⟨.left, BitVec.eq_of_toNat_eq hb⟩
    · exact ⟨.right, BitVec.eq_of_toNat_eq hb⟩
    · exact ⟨.top, BitVec.eq_of_toNat_eq hb⟩

/-- R31: HOLE WRITE A with a face of the list. -/
theorem holeWriteA_face (index : Half) (x t : Word) (f : Face) (s : State) :
    holeWriteA index x t f.code s.toStation = answered (firstFailing (holeWriteAChecks index x t f.code s))
      { s.toStation with
        table := { s.table with halfA := some { index := index.toNat, x := x.toInt, t := t.toInt, face := f } } }
      s.toStation := by
  have hface : ¬ 2 < f.code.toNat := Nat.not_lt.mpr f.code_le
  simp only [holeWriteA, holeWriteAChecks, answered_cons, answered_nil, decide_eq_true_eq, Face.ofCode_code, hface, or_false]

/-- R31: HOLE WRITE A with any other face is refused. -/
theorem holeWriteA_noFace (index : Half) (x t : Word) (face : Byte) (s : State) (u : Station) (hf : 2 < face.toNat) :
    holeWriteA index x t face s.toStation = answered (firstFailing (holeWriteAChecks index x t face s)) u s.toStation := by
  simp only [holeWriteA, holeWriteAChecks, answered_cons, decide_eq_true_eq, Face.ofCode_above face hf, hf, or_true, if_true,
    ite_self]

/-- R32: a profile argument of 0 to 31 or FFh names a profile or none. -/
theorem profileArg_of_valid (b : Byte) (h : ¬ (31 < b.toNat ∧ b ≠ 0xFF)) :
    profileArg b = some (if b = 0xFF then none else some b.toNat) := by
  unfold profileArg
  by_cases hb : b = 0xFF
  · subst hb; rfl
  · have hle : b.toNat ≤ 31 := Nat.not_lt.mp fun hgt => h ⟨hgt, hb⟩
    rw [if_pos hle, if_neg hb]

/-- R32: any other profile argument names nothing. -/
theorem profileArg_of_invalid (b : Byte) (h : 31 < b.toNat ∧ b ≠ 0xFF) : profileArg b = none := by
  rw [profileArg, if_neg (by omega), if_neg h.2]

/-- R33: the station after a commit, for profile arguments of R32. -/
theorem Station.commitHole_eq (s : Station) (i : Nat) (a : HalfA) (drill set : Byte) (depth stroke : Int) :
    s.commitHole i (committedHole a (if drill = 0xFF then none else some drill.toNat)
        (if set = 0xFF then none else some set.toNat) depth stroke) =
      { s with
        table :=
          { s.table with
            halfA := none
            holes := Table.put s.table.holes i
              { x := a.x, t := a.t, face := a.face
                drill := if drill = 0xFF then none else some drill.toNat
                set := if set = 0xFF then none else some set.toNat
                depth, stroke
                state := if drill = 0xFF then .drilled else .pending
                claimant := none, attempts := 0, entry := none, measured := none, last := none } }
        heads := if s.hole i = none then s.heads else s.heads.map fun w => { w with queue := w.queue.erase i } } := by
  have hstate : (if (if drill = 0xFF then none else some drill.toNat).isSome then HoleState.pending else .drilled)
      = if drill = 0xFF then .drilled else .pending := by
    by_cases hd : drill = 0xFF
    · rw [if_pos hd, if_pos hd]; rfl
    · rw [if_neg hd, if_neg hd]; rfl
  simp only [Station.commitHole, committedHole, hstate]
  cases s.hole i <;> rfl

/-- R32, R33: HOLE WRITE B with a half A in the holding buffer. -/
theorem holeWriteB_held (index : Half) (drill set : Byte) (depth stroke : Word) (s : State) (a : HalfA)
    (hA : s.table.halfA = some a) :
    holeWriteB index drill set depth stroke s.toStation =
      answered (firstFailing (holeWriteBChecks index drill set depth stroke s))
        (s.toStation.commitHole index.toNat (committedHole a (if drill = 0xFF then none else some drill.toNat)
          (if set = 0xFF then none else some set.toNat) depth.toInt stroke.toInt)) s.toStation := by
  have hnone : ∀ b : Byte, (if b = 0xFF then none else some b.toNat) = none ↔ b = 0xFF := by simp
  simp only [holeWriteB, holeWriteBChecks, answered_cons, answered_nil, decide_eq_true_eq, hA, Option.map_some, ne_eq,
    Option.some.injEq]
  refine ite_congr rfl (fun _ => rfl) fun _ => ite_congr rfl (fun _ => rfl) fun _ => ite_congr rfl (fun _ => rfl) fun _ => ?_
  by_cases hd : 31 < drill.toNat ∧ drill ≠ 0xFF
  · simp only [profileArg_of_invalid drill hd, if_pos (Or.inl hd)]
  · by_cases he : 31 < set.toNat ∧ set ≠ 0xFF
    · simp only [profileArg_of_invalid set he, if_pos (Or.inr (Or.inl he))]
      cases profileArg drill <;> rfl
    · simp only [profileArg_of_valid drill hd, profileArg_of_valid set he, hd, he, false_or, hnone]

/-- R32: HOLE WRITE B with an empty holding buffer is refused. -/
theorem holeWriteB_notHeld (index : Half) (drill set : Byte) (depth stroke : Word) (s : State) (u : Station)
    (hA : s.table.halfA = none) :
    holeWriteB index drill set depth stroke s.toStation =
      answered (firstFailing (holeWriteBChecks index drill set depth stroke s)) u s.toStation := by
  simp [holeWriteB, holeWriteBChecks, answered_cons, hA]

/-- Settles O33: by the face that the byte names, and by what the holding buffer holds. -/
theorem holesAreWrittenInTwoHalves : Obligations.HolesAreWrittenInTwoHalves := by
  refine ⟨fun index x t face s ha => ⟨fun hpass f hf => ?_, fun why hfail => ?_⟩,
    fun index drill set depth stroke s ha => ⟨fun hpass a hA => ?_, fun why hfail => ?_⟩, fun t i j v => ⟨?_, fun hwf => ?_⟩⟩
  · subst hf
    exact (State.onRequest_answered ha (holeWriteA_face index x t f s)).1 hpass
  · obtain hf | ⟨f, rfl⟩ := face_cases face
    · exact (State.onRequest_answered ha (holeWriteA_noFace index x t face s s.toStation hf)).2 why hfail
    · exact (State.onRequest_answered ha (holeWriteA_face index x t f s)).2 why hfail
  · have hdone := (State.onRequest_answered ha (holeWriteB_held index drill set depth stroke s a hA)).1 hpass
    rwa [Station.commitHole_eq] at hdone
  · cases hA : s.table.halfA with
    | none =>
      exact (State.onRequest_answered ha (holeWriteB_notHeld index drill set depth stroke s s.toStation hA)).2 why hfail
    | some a => exact (State.onRequest_answered ha (holeWriteB_held index drill set depth stroke s a hA)).2 why hfail
  · split
    · next hj => rw [hj, Table.find_put_same]
    · next hj => exact Table.find_put_other t i j v hj
  · split
    · next hj => rw [hj, Table.find_remove_same t i hwf]
    · next hj => exact Table.find_remove_other t i j hj

end Sys2Proof.Machine
end

section
/-!
The two ends of a cycle: engagement (R36, R77, R85, R103, R105, R130, R143), and the end confirmed home (R37 to R41, R78, R87,
R128, R142, R155).
-/
namespace Sys2Proof.Machine

/-! ## Engagement -/

theorem Station.neededProfile_of_needed (s : Station) (k : HeadKind) (v : Hole) (n : Nat) (hn : k.needed v = some n) :
    s.neededProfile k v = s.profile n := by
  rw [Station.neededProfile, hn, Option.bind_some]

/-- R77: a head engages on the hole it has claimed. -/
theorem Station.engage_claimed (h : HeadNo) (s : Station) (c : Claim) (v : Hole) (hc : (s.head h).claim = some c)
    (hv : s.hole c.hole = some v) : s.engage h = s.engageOn h c.hole v := by
  simp only [Station.engage, Station.onClaimed, hc, hv]

/-- R77: engagement with a profile from which a cycle of the head's kind begins. -/
theorem Station.engageOn_eq (h : HeadNo) (i : Nat) (v : Hole) (s : Station) (n : Nat) (q : Profile) (c : Cycle)
    (hn : (s.head h).cfg.kind.needed v = some n) (hq : s.profile n = some q)
    (hc : beginCycle (s.head h).cfg.kind i v q.body = some c) :
    s.engageOn h i v
      = (s.putHole i (v.engage (s.head h).cfg.kind)).setHead h
          { s.head h with
            state := .engaged, gate := (s.head h).gate.engage, engine := some c, bank := .copy q.comparators } := by
  simp only [Station.engageOn, Station.neededProfile_of_needed s _ v n hn, hq, hc, Station.modHead, Station.head_putHole]

/-- Settles O19: `Station.engageOn_eq` for a cycle of either kind. -/
theorem engagementBeginsTheCycle : Obligations.EngagementBeginsTheCycle := by
  intro h i x v n q s hclaim hv hq
  rw [Station.engage_claimed h s _ v hclaim hv]
  refine ⟨fun f layers hkind hn hbody => ?_, fun f hkind hn hbody => ?_⟩
  · rw [Station.engageOn_eq h i v s n q (beginDrill i f layers v.depth) (by rw [hkind]; exact hn) hq
      (by rw [hkind, hbody]; rfl), hkind]
    rfl
  · rw [Station.engageOn_eq h i v s n q (beginSet i f v.stroke v.measured) (by rw [hkind]; exact hn) hq
      (by rw [hkind, hbody]; rfl), hkind]
    rfl

/-! ## What an outcome does to a hole -/

/-- R39: an attempt below the third goes back, the third is REJECTED. -/
theorem Hole.retry_eq (back : HoleState) (v : Hole) :
    v.retry back = if v.attempts + 1 < 3 then { v with attempts := v.attempts + 1, state := back }
      else { v with attempts := 3, state := .rejected } := by
  unfold Hole.retry
  by_cases hthird : 3 ≤ v.attempts + 1
  · rw [if_pos hthird, if_neg (by omega)]
  · rw [if_neg hthird, if_pos (by omega)]

/-- R38: the state that a setting cycle goes back to. -/
theorem Hole.entryState_eq (v : Hole) : v.entryState = if v.entry = some .suspect then .suspect else .drilled := by
  unfold Hole.entryState
  split
  · next he => rw [if_pos he]
  · next he => rw [he, if_neg (by decide)]
  · next he => rw [he, if_neg (by decide)]

/-- R37: the three outcomes of a drilling cycle that give a further attempt. -/
theorem Hole.drillOutcome_retry (o : CycleOutcome) (m : Option Measured) (v : Hole)
    (ho : o = .aborted ∨ o = .interrupted ∨ o = .cancelled) : v.drillOutcome o m = v.retry .pending := by
  rcases ho with rfl | rfl | rfl <;> rfl

/-- R38: the same outcomes of a setting cycle; only ABORTED gives a further attempt once contact was recognised. -/
theorem Hole.setOutcome_retry (o : CycleOutcome) (after : Bool) (v : Hole)
    (ho : o = .aborted ∨ o = .interrupted ∨ o = .cancelled) :
    v.setOutcome o after = if o ≠ .aborted ∧ after = true then { v with state := .rejected } else v.retry v.entryState := by
  rcases ho with rfl | rfl | rfl
  · rw [if_neg (fun h => h.1 rfl)]; rfl
  · cases after <;> rfl
  · cases after <;> rfl

/-- R40, R128: the measured values of a drilling cycle that found both depths. -/
theorem Cycle.measured_both (c : Cycle) (d : DrillWork) (pc pb : Int) (hw : c.work = .drill d) (hc : d.contact = some pc)
    (hb : d.breakthrough = some pb) : c.measured = some { contact := pc, breakthrough := pb, grip := pb - pc } := by
  simp only [Cycle.measured, hw, hc, hb]

/-- R40, R128: without one of the depths nothing is measured. -/
theorem Cycle.measured_missing (c : Cycle) (d : DrillWork) (hw : c.work = .drill d)
    (h : d.contact = none ∨ d.breakthrough = none) : c.measured = none := by
  simp only [Cycle.measured, hw]
  rcases h with h | h
  · rw [h]
  · rw [h]; cases d.contact <;> rfl

theorem Hole.cycleEnd_drill (c : Cycle) (o : CycleOutcome) (why : Reason) (v : Hole) (d : DrillWork) (hw : c.work = .drill d) :
    Hole.cycleEnd c o why v = { v.drillOutcome o c.measured with claimant := none, last := some (o, why) } := by
  simp only [Hole.cycleEnd, hw]

theorem Hole.cycleEnd_set (c : Cycle) (o : CycleOutcome) (why : Reason) (v : Hole) (d : SetWork) (hw : c.work = .set d) :
    Hole.cycleEnd c o why v = { v.setOutcome o d.contact.isSome with claimant := none, last := some (o, why) } := by
  simp only [Hole.cycleEnd, Cycle.afterContact, hw]

/-! ## The record of a cycle -/

theorem Station.attemptNumber_present (s : Station) (i : Nat) (v : Hole) (hv : s.hole i = some v) :
    s.attemptNumber i = v.attempts + 1 := by
  simp only [Station.attemptNumber, hv]

/-- R128: the drill group; the stack is 0 while a depth is missing. -/
theorem Cycle.group_drill (c : Cycle) (d : DrillWork) (hw : c.work = .drill d) :
    c.group = .drill
      { contact := d.contact.getD 0, breakthrough := d.breakthrough.getD 0
        stack := if d.contact.isSome ∧ d.breakthrough.isSome then d.breakthrough.getD 0 - d.contact.getD 0 else 0
        peakForce := c.peakForce, peakTorque := d.peakTorque, pecks := d.pecks, overTorque := d.overTorque } := by
  simp only [Cycle.group, hw]
  cases d.contact <;> cases d.breakthrough <;> rfl

/-- R142: the set group; the formed length is 0 while a stroke is missing. -/
theorem Cycle.group_set (c : Cycle) (d : SetWork) (hw : c.work = .set d) :
    c.group = .set
      { contact := d.contact.getD 0, final := d.deepest
        formed := if d.contact.isSome ∧ d.setStroke.isSome then d.setStroke.getD 0 - d.contact.getD 0 else 0
        peakForce := c.peakForce, dwell := d.dwellCount, gripComp := d.gripComp } := by
  simp only [Cycle.group, hw]
  cases d.contact <;> cases d.setStroke <;> rfl

/-- R155: the record of a cycle end, for a hole that is present. -/
theorem Station.cycleRecord_present (s : Station) (h : HeadNo) (c : Cycle) (o : CycleOutcome) (why : Reason) (v : Hole)
    (hv : s.hole c.hole = some v) :
    s.cycleRecord h c o why
      = { jigId := s.table.jigId, hole := c.hole, head := h, operation := c.operation, outcome := o, reason := why
          attempt := v.attempts + 1, sequence := s.ring.passSeq, notes := (s.head h).bank.notes
          latch := (s.head h).bank.latch, group := c.group } := by
  rw [Station.cycleRecord, Station.attemptNumber_present s _ v hv]

theorem Cycle.operation_drill (c : Cycle) (d : DrillWork) (hw : c.work = .drill d) : c.operation = .drill := by
  simp only [Cycle.operation, hw]

theorem Cycle.operation_set (c : Cycle) (d : SetWork) (hw : c.work = .set d) : c.operation = .set := by
  simp only [Cycle.operation, hw]

/-! ## The end confirmed home -/

/-- R87: only a HELD gate lets go. -/
theorem Gate.letGo_eq (g : Gate) : g.letGo = if g.state = .held then { g with state := .rejoin } else g := by
  unfold Gate.letGo
  cases g.state <;> rfl

/-- R78, R87: beyond the cycle's end, the confirmation at home changes the gate and the state of the head alone. -/
theorem Station.finishCycle_eq (s : Station) (h : HeadNo) (c : Cycle) (o : CycleOutcome) (why : Reason)
    (hc : (s.head h).engine = some c) (hd : c.decision = some (o, why)) :
    s.finishCycle h = (s.concludeCycle h c o why).modHead h fun w =>
      { w with gate := w.gate.letGo, state := (s.concludeCycle h c o why).afterCycle o w.queue } := by
  simp only [Station.finishCycle, hc, hd]

theorem Station.head_finishCycle_same (s : Station) (h : HeadNo) (c : Cycle) (o : CycleOutcome) (why : Reason)
    (hc : (s.head h).engine = some c) (hd : c.decision = some (o, why)) :
    (s.finishCycle h).head h = (s.head h).finished c (s.afterCycle o ((s.head h).queue.erase c.hole)) := by
  rw [Station.head_finishCycle s h h c o why hc hd, if_pos rfl]

theorem Station.head_finishCycle_other (s : Station) (h j : HeadNo) (c : Cycle) (o : CycleOutcome) (why : Reason)
    (hc : (s.head h).engine = some c) (hd : c.decision = some (o, why)) (hj : j ≠ h) :
    (s.finishCycle h).head j = s.head j := by
  rw [Station.head_finishCycle s h j c o why hc hd, if_neg hj.symm]

/-- R35, R37, R38: the records after a cycle end confirmed home, of a head whose claim is on the cycle's hole. -/
theorem Station.hole_finishCycle (s : Station) (h : HeadNo) (c : Cycle) (o : CycleOutcome) (why : Reason) (i : Nat)
    (hc : (s.head h).engine = some c) (hd : c.decision = some (o, why))
    (hclaim : (s.head h).claim.map (fun k => k.hole) = some c.hole) :
    (s.finishCycle h).hole i =
      if i = c.hole then (s.hole i).map fun v => Hole.cycleEnd c o why { v with claimant := none } else s.hole i := by
  rw [Station.finishCycle_eq s h c o why hc hd, Station.hole_modHead, Station.hole_concludeCycle s h c o why i hclaim]

/-- R78, R44: the table after a cycle end confirmed home. -/
theorem Station.finishCycle_table (s : Station) (h : HeadNo) (c : Cycle) (o : CycleOutcome) (why : Reason)
    (hc : (s.head h).engine = some c) (hd : c.decision = some (o, why)) :
    (s.finishCycle h).table =
      { s.table with
        holes := s.endedHoles h c o why
        complete := s.table.complete
          || (s.table.jig == .working && (s.endedHoles h c o why).all fun e => e.2.terminal) } := by
  rw [Station.finishCycle_eq s h c o why hc hd, Station.modHead_table, Station.concludeCycle_table]

/-- R155, R158: the result queue after a cycle end confirmed home. -/
theorem Station.finishCycle_results (s : Station) (h : HeadNo) (c : Cycle) (o : CycleOutcome) (why : Reason)
    (hc : (s.head h).engine = some c) (hd : c.decision = some (o, why)) :
    (s.finishCycle h).results = (s.concludeCycle h c o why).results := by
  rw [Station.finishCycle_eq s h c o why hc hd, Station.modHead_results]

theorem Station.finishCycle_faults (s : Station) (h : HeadNo) (c : Cycle) (o : CycleOutcome) (why : Reason)
    (hc : (s.head h).engine = some c) (hd : c.decision = some (o, why)) :
    (s.finishCycle h).faults = (s.concludeCycle h c o why).faults := by
  rw [Station.finishCycle_eq s h c o why hc hd, Station.modHead_faults]

/-- Settles O23: the cycle end confirmed home, block by block. -/
theorem cycleEndAppliesTheOutcome : Obligations.CycleEndAppliesTheOutcome := by
  refine ⟨fun h c o why x v s t ht hc hd hclaim hv => ?_,
    fun m v => ⟨rfl, rfl, rfl, fun o ho => by rw [Hole.drillOutcome_retry o m v ho, Hole.retry_eq]⟩,
    fun after v => ⟨rfl, rfl, fun o ho => by rw [Hole.setOutcome_retry o after v ho, Hole.retry_eq, Hole.entryState_eq]⟩,
    fun h c o why x v s t n joined told ht hc hd _ _ hn hjoined htold => ?_,
    fun c o why v => ⟨fun d hw => ⟨fun pc pb hpc hpb => ?_, fun hmissing => ?_⟩, fun d hw => Hole.cycleEnd_set c o why v d hw⟩,
    fun h c o why v s hv => ⟨fun d hw => ?_, fun d hw => ?_⟩⟩
  -- hole, record, head, and what stays
  · subst ht
    have hhead := Station.head_finishCycle_same s h c o why hc hd
    have hhole := fun i => Station.hole_finishCycle s h c o why i hc hd (by rw [hclaim]; rfl)
    refine ⟨?_, Station.finishCycle_records s h c o why hc hd, by rw [hhead]; rfl, by rw [hhead]; rfl, by rw [hhead]; rfl,
      by rw [hhead]; rfl, by rw [hhead]; rfl, fun j hj => Station.head_finishCycle_other s h j c o why hc hd hj, fun i hi => ?_,
      s.finishCycle_ring h, s.finishCycle_profiles h, s.finishCycle_correction h, s.finishCycle_keepOut h,
      s.finishCycle_mgmt h⟩
    · rw [hhole, if_pos rfl, hv, Option.map_some]
    · rw [hhole, if_neg hi]
  -- bank, gate, hold, completeness and fault kinds
  · subst ht hn
    have hhead := Station.head_finishCycle_same s h c o why hc hd
    have htable := Station.finishCycle_table s h c o why hc hd
    obtain ⟨hupper, hlower, hhold⟩ := Station.concludeCycle_results h c o why s _ rfl
    have hkinds : told = o.kinds.foldl (fun f k => f.raise k) joined := by rw [htold]; cases o <;> rfl
    rw [Station.finishCycle_results s h c o why hc hd, Station.finishCycle_faults s h c o why hc hd, htable, hhead]
    exact ⟨rfl, Gate.letGo_eq _, rfl, rfl, hupper, hlower, hhold, rfl, rfl, rfl, rfl,
      Station.concludeCycle_faults h c o why s joined told hjoined hkinds⟩
  -- the drilled hole with its measured group, or without
  · rw [Hole.cycleEnd_drill c o why v d hw, Cycle.measured_both c d pc pb hw hpc hpb]
  · rw [Hole.cycleEnd_drill c o why v d hw, Cycle.measured_missing c d hw hmissing]
  -- the record of either kind
  · rw [Station.cycleRecord_present s h c o why v hv, Cycle.operation_drill c d hw, Cycle.group_drill c d hw]
  · rw [Station.cycleRecord_present s h c o why v hv, Cycle.operation_set c d hw, Cycle.group_set c d hw]

end Sys2Proof.Machine
end

section
/-!
The Correction Unit: the tables that its two requests write (R46, R47), and the correction at a nominal X (R49, R50).
-/
namespace Sys2Proof.Machine

/-! ## The two tables -/

/-- R46: CORRECTION POINT does what the checks of its rule say, in their order. -/
theorem correctionPoint_eq (k : Byte) (x dx dt : Word) (s : Station) :
    correctionPoint k x dx dt s = answered (firstFailing (correctionPointChecks k x dx dt))
      { s with
        correction :=
          { s.correction with
            staging := Table.put s.correction.staging k.toNat { x := x.toInt, dx := dx.toInt, dt := dt.toInt } } } s := by
  simp only [correctionPoint, correctionPointChecks, answered_cons, answered_nil, decide_eq_true_eq]

/-- A map that can fail gives the values in order, unless it fails on some element. -/
theorem mapM_option_eq {α β : Type} (f : α → Option β) (l : List α) :
    l.mapM f = if (l.any fun a => (f a).isNone) = true then none else some (l.filterMap f) := by
  induction l with
  | nil => rfl
  | cons a l ih =>
    rw [List.mapM_cons, ih]
    cases hf : f a with
    | none => simp [hf]
    | some b =>
      simp only [List.any_cons, List.filterMap_cons, hf, Option.isNone_some, Bool.false_or]
      split <;> rfl

/-- R47: the staging points that a commit takes, unless one of them is unwritten. -/
theorem stagedPoints_eq (m : Byte) (s : State) :
    stagedPoints s.correction.staging m.toNat =
      if ((List.range m.toNat).any fun k => (Table.find s.correction.staging k).isNone) = true then none
      else some (stagedUpTo m s) :=
  mapM_option_eq _ _

theorem ascending_cons_cons (a b : Point) (rest : List Point) :
    ascending (a :: b :: rest) = true ↔ a.x < b.x ∧ ascending (b :: rest) = true := by
  simp [ascending]

/-- R47: each nominal X greater than the one before it is each greater than every one before it. -/
theorem ascending_iff_pairwise (points : List Point) :
    ascending points = true ↔ points.Pairwise fun a b => a.x < b.x := by
  induction points with
  | nil => exact ⟨fun _ => List.Pairwise.nil, fun _ => rfl⟩
  | cons a rest ih =>
    cases rest with
    | nil => exact ⟨fun _ => List.pairwise_singleton _ a, fun _ => rfl⟩
    | cons b rest =>
      rw [ascending_cons_cons, ih, List.pairwise_cons (a := a)]
      constructor
      · rintro ⟨hab, hrest⟩
        refine ⟨fun c hc => ?_, hrest⟩
        obtain rfl | hc := List.mem_cons.mp hc
        · exact hab
        · exact Int.lt_trans hab (List.rel_of_pairwise_cons hrest hc)
      · rintro ⟨ha, hrest⟩
        exact ⟨ha b List.mem_cons_self, hrest⟩

/-- R47: CORRECTION COMMIT does what the checks of its rule say, in their order. -/
theorem correctionCommit_eq (m : Byte) (s : State) :
    correctionCommit m s.toStation = answered (firstFailing (correctionCommitChecks m s))
      { s.toStation with correction := { s.correction with active := stagedUpTo m s } } s.toStation := by
  simp only [correctionCommit, correctionCommitChecks, answered_cons, answered_nil, decide_eq_true_eq]
  refine ite_congr rfl (fun _ => rfl) fun _ => ?_
  rw [stagedPoints_eq]
  cases (List.range m.toNat).any fun k => (Table.find s.correction.staging k).isNone
  case true => rfl
  case false =>
    by_cases hasc : (stagedUpTo m s).Pairwise fun a b => a.x < b.x
    · simp [(ascending_iff_pairwise _).mpr hasc, hasc]
    · simp [mt (ascending_iff_pairwise _).mp hasc, hasc]

/-- Settles O35: both requests are answered by the checks of their rules. -/
theorem correctionTablesAreWritten : Obligations.CorrectionTablesAreWritten :=
  ⟨fun k x dx dt s ha => State.onRequest_answered ha (correctionPoint_eq k x dx dt s.toStation),
    fun m s ha => State.onRequest_answered ha (correctionCommit_eq m s)⟩

/-! ## The rounded quotient -/

theorem roundQuotient_of_nonneg (n d : Int) (hn : 0 ≤ n) : roundQuotient n d = (2 * n + d) / (2 * d) := if_pos hn

theorem roundQuotient_zero (d : Int) (hd : 0 < d) : roundQuotient 0 d = 0 := by
  rw [roundQuotient_of_nonneg 0 d (Int.le_refl 0)]
  exact Int.ediv_eq_zero_of_lt (by omega) (by omega)

/-- R50: the rounding treats both signs alike. -/
theorem roundQuotient_neg (n d : Int) (hd : 0 < d) : roundQuotient (-n) d = -roundQuotient n d := by
  obtain hn | rfl | hn := Int.lt_trichotomy n 0
  · rw [roundQuotient_of_nonneg (-n) d (by omega), roundQuotient, if_neg (by omega), Int.neg_neg]
  · rw [Int.neg_zero, roundQuotient_zero d hd, Int.neg_zero]
  · rw [roundQuotient_of_nonneg n d (by omega), roundQuotient, if_neg (by omega), Int.neg_neg]

/-- R50: a quotient that is not negative is rounded up exactly from one half on. -/
theorem roundQuotient_bounds (n d : Int) (hn : 0 ≤ n) (hd : 0 < d) :
    2 * (roundQuotient n d * d) ≤ 2 * n + d ∧ 2 * n < 2 * (roundQuotient n d * d) + d := by
  rw [roundQuotient_of_nonneg n d hn]
  have hle := Int.ediv_mul_le (2 * n + d) (show 2 * d ≠ 0 by omega)
  have hlt := Int.lt_ediv_add_one_mul_self (2 * n + d) (show 0 < 2 * d by omega)
  rw [Int.mul_left_comm] at hle
  rw [Int.add_mul, Int.one_mul, Int.mul_left_comm] at hlt
  omega

/-- R50: the product `p` of the divisor `d` nearest to `n`, and the one farther from 0 where two are as near. -/
def NearestMultiple (n d p : Int) : Prop :=
  2 * (n - p).natAbs ≤ d.natAbs ∧ (2 * (n - p).natAbs = d.natAbs → n.natAbs ≤ p.natAbs)

theorem NearestMultiple.neg {n d p : Int} (h : NearestMultiple n d p) : NearestMultiple (-n) d (-p) := by
  unfold NearestMultiple at *
  omega

theorem roundQuotient_nearest_of_nonneg (n d : Int) (hn : 0 ≤ n) (hd : 0 < d) :
    NearestMultiple n d (roundQuotient n d * d) := by
  obtain ⟨hle, hlt⟩ := roundQuotient_bounds n d hn hd
  unfold NearestMultiple
  omega

theorem roundQuotient_nearest (n d : Int) (hd : 0 < d) : NearestMultiple n d (roundQuotient n d * d) := by
  obtain hn | hn := Int.le_total 0 n
  · exact roundQuotient_nearest_of_nonneg n d hn hd
  · have hneg := (roundQuotient_nearest_of_nonneg (-n) d (by omega) hd).neg
    rwa [roundQuotient_neg n d hd, Int.neg_mul, Int.neg_neg, Int.neg_neg] at hneg

/-! ## The segment of a nominal X -/

/-- R49: at a point's own X the fraction is 0, and the point's values stand. -/
theorem interpolate_start (a b : Point) (h : a.x < b.x) : interpolate a b a.x = { dx := a.dx, dt := a.dt } := by
  simp [interpolate, roundQuotient_zero (b.x - a.x) (by omega)]

theorem correctionFrom_start (a : Point) (rest : List Point) (h : (a :: rest).Pairwise fun u v => u.x < v.x) :
    correctionFrom a rest a.x = { dx := a.dx, dt := a.dt } := by
  cases rest with
  | nil => rfl
  | cons b rest =>
    have hab : a.x < b.x := List.rel_of_pairwise_cons h List.mem_cons_self
    rw [correctionFrom, if_pos hab, interpolate_start a b hab]

/-- R49: from its first point on, an ascending table gives the correction of the segment. -/
theorem correctionAt_of_le (a : Point) (rest : List Point) (x : Int) (h : (a :: rest).Pairwise fun u v => u.x < v.x)
    (hx : a.x ≤ x) : correctionAt (a :: rest) x = correctionFrom a rest x := by
  by_cases heq : x = a.x
  · rw [heq, correctionAt, if_pos (Int.le_refl _), correctionFrom_start a rest h]
  · rw [correctionAt, if_neg (by omega)]

/-- R49: the points before the last one not above X take no part. -/
theorem correctionFrom_append (c : Point) (before : List Point) (a : Point) (after : List Point) (x : Int)
    (h : (before ++ a :: after).Pairwise fun u v => u.x < v.x) (hx : a.x ≤ x) :
    correctionFrom c (before ++ a :: after) x = correctionFrom a after x := by
  induction before generalizing c with
  | nil => rw [List.nil_append, correctionFrom, if_neg (by omega)]
  | cons b before ih =>
    have hba : b.x < a.x := List.rel_of_pairwise_cons h (by simp)
    rw [List.cons_append, correctionFrom, if_neg (by omega), ih b h.of_cons]

theorem correctionAt_append (before : List Point) (a : Point) (after : List Point) (x : Int)
    (h : (before ++ a :: after).Pairwise fun u v => u.x < v.x) (hx : a.x ≤ x) :
    correctionAt (before ++ a :: after) x = correctionFrom a after x := by
  cases before with
  | nil => exact correctionAt_of_le a after x h hx
  | cons c before =>
    rw [List.cons_append] at h ⊢
    have hca : c.x < a.x := List.rel_of_pairwise_cons h (by simp)
    rw [correctionAt_of_le c _ x h (by omega), correctionFrom_append c before a after x h.of_cons hx]

/-- Settles O36: a nominal X that is not below a point of the table is corrected from that point on. -/
theorem correctionInterpolatesAndHoldsItsEnds : Obligations.CorrectionInterpolatesAndHoldsItsEnds := by
  refine ⟨fun x => rfl, fun a rest x hx => if_pos hx, fun before a x h hx => ?_, fun before after a b x h hax hxb => ?_,
    fun n d hd => roundQuotient_nearest n d hd, fun s v => ⟨rfl, rfl⟩⟩
  -- held beyond the last point
  · rw [correctionAt_append before a [] x h hx, correctionFrom]
  -- inside the segment from a to b
  · rw [correctionAt_append before a (b :: after) x h hax, correctionFrom, if_pos hxb, interpolate]

end Sys2Proof.Machine
end

section
/-!
What a request can make of one head, said once as `Head.Requested`, and how a relation between heads is carried through the moves
of `HeadMoves`. The laws of the heads that every step keeps read these two.
-/
namespace Sys2Proof.Machine

/-! ## What a request can make of a head -/

/-- What a request can make of head `j`, while the halt is present or absent. -/
inductive Head.Requested (halt : Bool) (j : HeadNo) (w : Head) : Head → Prop
  | stays : Requested halt j w w
  /-- R26, R28, R33, R68: entries leave the queue. -/
  | loses (queue : List Nat) : queue.Sublist w.queue → Requested halt j w { w with queue := queue }
  /-- R65: a SEEKING head whose queue has become empty. -/
  | rests (queue : List Nat) : queue.Sublist w.queue → w.state = .seeking →
      Requested halt j w { w with queue := queue, state := if halt then .halted else .idle }
  /-- R67: ASSIGN. -/
  | joins (i : Nat) : w.queue.length < 8 → i ∉ w.queue → Requested halt j w { w with queue := w.queue ++ [i] }
  /-- R67, R65: ASSIGN to an IDLE head. -/
  | joinsSeeking (i : Nat) : w.queue.length < 8 → i ∉ w.queue → w.state = .idle → halt = false →
      Requested halt j w { w with queue := w.queue ++ [i], state := .seeking }
  /-- R27, R64: JIG START, and RESUME of a HALTED head. -/
  | goesOn (next : HeadState) : w.state = .idle ∨ w.state = .halted → next = .idle ∨ next = .seeking → halt = false →
      Requested halt j w { w with state := next }
  /-- R60: HEAD ENABLE. -/
  | enabled : w.state = .offline → Requested halt j w { w with state := if halt then .halted else .idle }
  /-- R61: HEAD DISABLE. -/
  | disabled : w.state.inCycle = false → Requested halt j w (({ w with claim := none } : Head).retire Gate.letGo)
  /-- R62: HEAD CLEAR. -/
  | cleared : w.state = .fault ∨ w.state = .halted → Requested halt j w (w.retire Gate.clear)
  /-- R57: HEAD CONFIG. -/
  | configured (cfg : HeadConfig) : w.state = .offline → Requested halt j w { w with cfg := cfg }
  /-- R76: START. -/
  | engaged (c : Cycle) (b : Bank) : w.state = .armed →
      Requested halt j w { w with state := .engaged, gate := w.gate.engage, engine := some c, bank := b }
  /-- R148: RESUME of a FROZEN head. -/
  | thawed : w.state = .frozen → halt = false →
      Requested halt j w { w with state := .engaged, engine := w.engine.map Cycle.thaw }
  /-- R149: CANCEL. -/
  | cancelled : w.state = .frozen → Requested halt j w { w with state := .retracting, engine := w.engine.map Cycle.cancel }
  /-- R169: STATION RESET. -/
  | reset : Requested halt j w (.initial j)

theorem Head.Requested.of_eq {halt : Bool} {j : HeadNo} {w u v : Head} (h : v = u) (hu : Head.Requested halt j w u) :
    Head.Requested halt j w v := h ▸ hu

/-- R65: entries leave the queue, and the head rests when none is left. -/
theorem Head.Requested.idled {s : Station} {j : HeadNo} {w : Head} {queue : List Nat} (hq : queue.Sublist w.queue) :
    Head.Requested s.ring.halt j w (({ w with queue := queue } : Head).idled (s.rest .idle)) := by
  unfold Head.idled
  split
  · next h => exact .rests queue hq h.1
  · exact .loses queue hq

theorem Head.kept_sublist (w : Head) : w.kept.Sublist w.queue := by
  unfold Head.kept
  split
  · exact List.filter_sublist
  · exact List.nil_sublist _

/-- What every request can make of a head. -/
theorem requestEffect_requested (i : Instr) (f : Station → Station × Reply) (hf : requestEffect i = some f) (s : Station)
    (j : HeadNo) : Head.Requested s.ring.halt j (s.head j) ((f s).1.head j) := by
  cases i <;> simp only [requestEffect, Option.some.injEq, reduceCtorEq] at hf <;> subst hf
  case jigLoad id =>
    obtain h | h := jigLoad_head id s j
    · exact .of_eq h .stays
    · exact .of_eq h (.loses _ (List.nil_sublist _))
  case jigStart =>
    obtain h | ⟨hst, hhalt, h⟩ := jigStart_head s j
    · exact .of_eq h .stays
    · exact .of_eq h (.goesOn _ (.inl hst) (.inr rfl) hhalt)
  case jigRelease =>
    obtain h | h := jigRelease_head s j
    · exact .of_eq h .stays
    · exact .of_eq h (.idled (List.nil_sublist _))
  case holeWriteB index drill set depth stroke =>
    obtain h | h := holeWriteB_head index drill set depth stroke s j
    · exact .of_eq h .stays
    · exact .of_eq h (.loses _ List.erase_sublist)
  case headConfig h kind face group ox ot w band count shift mode home =>
    obtain h | ⟨hst, c, h⟩ := headConfig_head h kind face group ox ot w band count shift mode home s j
    · exact .of_eq h .stays
    · exact .of_eq h (.configured c hst)
  case headEnable h =>
    obtain h | ⟨hst, h⟩ := headEnable_head h s j
    · exact .of_eq h .stays
    · exact .of_eq h (.enabled hst)
  case headDisable h =>
    obtain h | ⟨hst, h⟩ := headDisable_head h s j
    · exact .of_eq h .stays
    · exact .of_eq h (.disabled hst)
  case headClear h =>
    obtain h | ⟨hst, h⟩ := headClear_head h s j
    · exact .of_eq h .stays
    · exact .of_eq h (.cleared hst)
  case assign h k =>
    obtain h | ⟨hlen, hmem, h | ⟨hst, hhalt, h⟩⟩ := assign_head h k s j
    · exact .of_eq h .stays
    · exact .of_eq h (.joins _ hlen hmem)
    · exact .of_eq h (.joinsSeeking _ hlen hmem hst hhalt)
  case withdraw h =>
    obtain h | h := withdraw_head h s j
    · exact .of_eq h .stays
    · exact .of_eq h (.idled (Head.kept_sublist _))
  case start set =>
    obtain h | ⟨hst, c, b, h⟩ := start_head set s j
    · exact .of_eq h .stays
    · exact .of_eq h (.engaged c b hst)
  case resume h =>
    obtain h | ⟨hhalt, ⟨hst, h | h⟩ | ⟨hst, h⟩⟩ := resume_head h s j
    · exact .of_eq h .stays
    · exact .of_eq h (.goesOn _ (.inr hst) (.inr rfl) hhalt)
    · exact .of_eq h (.goesOn _ (.inr hst) (.inl rfl) hhalt)
    · exact .of_eq h (.thawed hst hhalt)
  case cancel h =>
    obtain h | ⟨hst, h⟩ := cancel_head h s j
    · exact .of_eq h .stays
    · exact .of_eq h (.cancelled hst)
  case stationReset => exact .of_eq (Station.head_afterReset _ _ j) .reset
  all_goals exact .of_eq (by simp [Station.head]) .stays

/-- R169, R60 to R76: a request changes the keep-out distances by GROUP CONFIG or STATION RESET alone. -/
theorem requestEffect_keepOut (i : Instr) (f : Station → Station × Reply) (hf : requestEffect i = some f) (s : Station) :
    (f s).1.keepOut = s.keepOut ∨ i = .stationReset ∨ ∃ g d, i = .groupConfig g d := by
  cases i <;> simp only [requestEffect, Option.some.injEq, reduceCtorEq] at hf <;> subst hf
  case groupConfig g d => exact .inr (.inr ⟨g, d, rfl⟩)
  case stationReset => exact .inr (.inl rfl)
  all_goals exact .inl (by simp)

/-- R151: no request brings the halt, and none makes a part active. -/
theorem requestEffect_halt (i : Instr) (f : Station → Station × Reply) (hf : requestEffect i = some f) (s : Station) :
    (f s).1.ring.active = s.ring.active ∧ ((f s).1.ring.halt = true → s.ring.halt = true) := by
  cases i <;> simp only [requestEffect, Option.some.injEq, reduceCtorEq] at hf <;> subst hf
  case mapWrite e id role head =>
    obtain ⟨m, hm⟩ := mapWrite_ring e id role head s
    rw [hm]; exact ⟨rfl, fun h => h⟩
  case mapClear =>
    obtain ⟨m, hm⟩ := mapClear_ring s
    rw [hm]; exact ⟨rfl, id⟩
  case stationConfig limit upper lower => simp [stationConfig, Ring.active, Ring.transparent, Ring.halt]
  case stationReset =>
    rw [stationReset_station, Station.stationReset, Station.afterReset_ring]
    exact ⟨rfl, fun h => by simpa [Ring.halt, Ring.initial] using .inr h⟩
  all_goals simp

/-- R156: a slot takes a record from the result queue, and leaves the ring, the heads and the distances alone. -/
theorem Station.drain_keeps (s : Station) (l : List Byte) :
    (s.drain l).1.ring = s.ring ∧ (s.drain l).1.heads = s.heads ∧ (s.drain l).1.keepOut = s.keepOut := by
  unfold Station.drain
  split
  · exact ⟨rfl, rfl, rfl⟩
  · split
    · exact ⟨rfl, rfl, rfl⟩
    · exact ⟨Station.holdTest_ring _, Station.holdTest_heads _, Station.holdTest_keepOut _⟩

theorem Station.head_drain (s : Station) (l : List Byte) (j : HeadNo) : (s.drain l).1.head j = s.head j := by
  obtain ⟨_, hheads, _⟩ := s.drain_keeps l
  unfold Station.head
  rw [hheads]

/-! ## Relating the heads before and after -/

/-- What relates one head before and after an update of that head alone relates every head. -/
theorem Station.heads_related {R : Head → Head → Prop} (hR : ∀ w, R w w) {s t : Station} {h : HeadNo} {w : Head}
    (ht : ∀ j, t.head j = if h = j then w else s.head j) (hw : R (s.head h) w) (j : HeadNo) : R (s.head j) (t.head j) := by
  rw [ht]
  split
  · next e => exact e ▸ hw
  · exact hR _

/-- R63: a cause reaches the one head, if it is in service. -/
theorem Station.toFault_related {R : Head → Head → Prop} (hR : ∀ w, R w w) (s : Station) (h : HeadNo) (cause : Reason)
    (hw : R (s.head h) ((s.head h).faulted cause)) (j : HeadNo) : R (s.head j) ((s.toFault h cause).head j) := by
  rw [Station.head_toFault]
  split
  · next e => exact e.1 ▸ hw
  · exact hR _

/-- R77: engagement, if it takes place, is that of the one head. -/
theorem Station.engageOn_related {R : Head → Head → Prop} (hR : ∀ w, R w w) (s : Station) (h : HeadNo) (i : Nat) (v : Hole)
    (hw : ∀ c b, R (s.head h) { s.head h with state := .engaged, gate := (s.head h).gate.engage, engine := some c, bank := b })
    (j : HeadNo) : R (s.head j) ((s.engageOn h i v).head j) := by
  obtain e | ⟨hj, c, b, e⟩ := s.head_engageOn h j i v <;> rw [e]
  · exact hR _
  · exact hj ▸ hw c b

/-- R78: a cycle end, if it takes place, is that of the one head. -/
theorem Station.finishCycle_related {R : Head → Head → Prop} (hR : ∀ w, R w w) (s : Station) (h : HeadNo)
    (hw : ∀ c o, R (s.head h) ((s.head h).finished c (s.afterCycle o ((s.head h).queue.erase c.hole))))
    (j : HeadNo) : R (s.head j) ((s.finishCycle h).head j) := by
  by_cases hd : ∃ c o why, (s.head h).engine = some c ∧ c.decision = some (o, why)
  · obtain ⟨c, o, why, hc, hd⟩ := hd
    exact Station.heads_related hR (s.head_finishCycle h · c o why hc hd) (hw c o) j
  · have hnone : ∀ c, (s.head h).engine = some c → c.decision = none := fun c hc => by
      cases ho : c.decision with
      | none => rfl
      | some d =>
        obtain ⟨o, why⟩ := d
        exact absurd ⟨c, o, why, hc, ho⟩ hd
    rw [s.finishCycle_none h hnone]
    exact hR _

end Sys2Proof.Machine
end

section
/-!
The assignment queues (R66): no operation but ASSIGN makes a queue longer.
-/
namespace Sys2Proof.Machine

theorem queueLegal_of_sublist {a b : List Nat} (h : a.Sublist b) (hb : b.length ≤ 8 ∧ b.Nodup) :
    a.length ≤ 8 ∧ a.Nodup :=
  ⟨Nat.le_trans h.length_le hb.1, List.Pairwise.sublist h hb.2⟩

/-- No entry of `b`'s queue is new. -/
def Head.noEntryGained (a b : Head) : Prop := b.queue.Sublist a.queue

theorem Head.noEntryGained.rfl (w : Head) : w.noEntryGained w := List.Sublist.refl _

theorem Head.noEntryGained.of_eq {a b : Head} (h : b.queue = a.queue) : a.noEntryGained b :=
  (congrArg b.queue.Sublist h).mp (List.Sublist.refl _)

/-- A change of the heads that only takes entries out of the queues keeps the law. -/
theorem Station.queuesLegal.of_gained {s t : Station} (hs : s.queuesLegal)
    (h : ∀ j, (s.head j).noEntryGained (t.head j)) : t.queuesLegal := fun j => queueLegal_of_sublist (h j) (hs j)

theorem Head.idled_queue (next : HeadState) (w : Head) : (w.idled next).queue = w.queue := by
  unfold Head.idled
  split <;> rfl

theorem Head.halted_queue (w : Head) : w.halted.queue = w.queue := by
  unfold Head.halted
  split <;> rfl

/-- R63, R78: a cycle that a cause cuts off takes its own entry out of the queue. -/
theorem Head.faulted_noEntryGained (cause : Reason) (w : Head) : w.noEntryGained (w.faulted cause) := by
  show w.cutOff.queue.Sublist w.queue
  unfold Head.cutOff
  split
  · exact List.Sublist.refl _
  · exact List.erase_sublist

theorem queuesLegal_headMoves : HeadMoves Station.queuesLegal where
  raise _ _ hs := hs
  quiet s h w hw hs := by
    obtain ⟨_, _, hq, _⟩ := hw
    exact hs.of_gained (Station.heads_related Head.noEntryGained.rfl (s.head_setHead h · w) (.of_eq hq.symm))
  run s h w hw hs := by
    obtain ⟨_, hq, _⟩ := hw
    exact hs.of_gained (Station.heads_related Head.noEntryGained.rfl (s.head_setHead h · w) (.of_eq hq.symm))
  toFault s h cause hs := hs.of_gained (s.toFault_related Head.noEntryGained.rfl h cause (Head.faulted_noEntryGained cause _))
  discard s h i why _ _ hs := by
    refine hs.of_gained (Station.heads_related Head.noEntryGained.rfl (s.head_discard h · i why) ?_)
    unfold Head.noEntryGained
    rw [Head.idled_queue]
    exact List.tail_sublist _
  grant s h i v _ _ _ _ hs := hs.of_gained (Station.heads_related Head.noEntryGained.rfl (s.head_grant h · i v) (.of_eq rfl))
  loseWindow s h _ hs := hs.of_gained (Station.heads_related Head.noEntryGained.rfl (s.head_loseWindow h) (.of_eq rfl))
  arm s h _ hs := hs.of_gained (Station.heads_related Head.noEntryGained.rfl (s.head_modHead h · _) (.of_eq rfl))
  engageOn s h c v _ _ _ hs := hs.of_gained (s.engageOn_related Head.noEntryGained.rfl h c.hole v fun _ _ => .of_eq rfl)
  finishCycle s h _ hs := hs.of_gained (s.finishCycle_related Head.noEntryGained.rfl h fun _ _ => List.erase_sublist)

/-- R66: no request breaks the law: ASSIGN alone makes a queue longer, and it checks both. -/
theorem Head.Requested.queueLegal {halt : Bool} {j : HeadNo} {w v : Head} (h : Head.Requested halt j w v)
    (hw : w.queue.length ≤ 8 ∧ w.queue.Nodup) : v.queue.length ≤ 8 ∧ v.queue.Nodup := by
  have joined : ∀ i, w.queue.length < 8 → i ∉ w.queue → (w.queue ++ [i]).length ≤ 8 ∧ (w.queue ++ [i]).Nodup :=
    fun i hlen hmem => ⟨by rw [List.length_append]; exact hlen, List.nodup_append.mpr
      ⟨hw.2, List.pairwise_singleton _ i, fun a ha b hb hab => hmem (List.mem_singleton.mp hb ▸ hab ▸ ha)⟩⟩
  cases h with
  | loses queue hq | rests queue hq _ => exact queueLegal_of_sublist hq hw
  | joins i hlen hmem | joinsSeeking i hlen hmem _ _ => exact joined i hlen hmem
  | disabled | cleared | reset => exact ⟨Nat.zero_le _, List.nodup_nil⟩
  | stays | goesOn | enabled | configured | engaged | thawed | cancelled => exact hw

theorem Station.withHalt_queuesLegal (f : Ring → Ring) (s : Station) (hs : s.queuesLegal) : (s.withHalt f).queuesLegal := by
  unfold Station.withHalt
  dsimp only
  split
  · exact hs.of_gained fun j => .of_eq (by rw [Station.head_haltArrives, Head.halted_queue]; rfl)
  · exact hs

/-- Every operation from which the commands are made keeps the law of the queues. -/
theorem queuesLegal_kept : Kept Station.queuesLegal where
  book _ _ _ _ hs := hs
  raise _ _ hs := hs
  headerHalt s _ hs := s.withHalt_queuesLegal _ hs
  stopLevel s b hs := by
    unfold Station.stopLevel
    split
    · exact s.withHalt_queuesLegal _ hs
    · exact hs
  toFault := queuesLegal_headMoves.toFault
  beginOutbound := queuesLegal_headMoves.beginOutbound
  carriageOutbound := queuesLegal_headMoves.carriageOutbound
  toolOutbound := queuesLegal_headMoves.toolOutbound
  carriageReturn := queuesLegal_headMoves.carriageReturn
  toolReturn := queuesLegal_headMoves.toolReturn
  drain s l hs := hs.of_gained fun j => .of_eq (by rw [Station.head_drain])
  request i f hf s hs j := (requestEffect_requested i f hf s j).queueLegal (hs j)
  powerOn s pins stop _ j := by
    rw [Station.powerOn, Station.head_afterReset]
    exact ⟨Nat.zero_le _, List.nodup_nil⟩
  assertReset _ hs := hs
  spinUpLimit := queuesLegal_headMoves.spinUpLimit
  toolNotHome := queuesLegal_headMoves.toolNotHome
  rivetFeedLimit := queuesLegal_headMoves.rivetFeedLimit
  dwellComplete := queuesLegal_headMoves.dwellComplete

/-- Settles O55: the law of the queues is one that every operation keeps. -/
theorem everyStepKeepsTheQueueLaw : Obligations.EveryStepKeepsTheQueueLaw := by
  intro s t hs hstep
  exact queuesLegal_kept.step s t hstep hs

end Sys2Proof.Machine
end

section
/-!
Claims and the keep-out distance (R59, R73): the arbiter alone gives a claim, and it gives none too close to another.
-/
namespace Sys2Proof.Machine

/-- A legal head stays legal, and holds afterwards no claim that it did not hold, in its group, before. -/
def Head.noClaimGained (a b : Head) : Prop :=
  a.legal → b.legal ∧ (b.claim = none ∨ b.claim = a.claim ∧ b.cfg.group = a.cfg.group)

theorem Head.noClaimGained.rfl (w : Head) : w.noClaimGained w := fun hw => ⟨hw, .inr ⟨Eq.refl _, Eq.refl _⟩⟩

/-- A head that keeps its claim and group, and whose next state and cycle are legal with that claim. -/
theorem Head.noClaimGained.keeps {a b : Head} (hc : b.claim = a.claim) (hg : b.cfg.group = a.cfg.group)
    (hb : a.legal → b.legal) : a.noClaimGained b := fun ha => ⟨hb ha, .inr ⟨hc, hg⟩⟩

/-- A head that lets its claim go, and stands in a state that needs neither claim nor cycle. -/
theorem Head.noClaimGained.lets {a b : Head} (hc : b.claim = none) (hst : b.state.claiming = false)
    (he : a.legal → b.engine = none) : a.noClaimGained b := fun ha =>
  ⟨⟨by rw [hc, hst]; rfl, by
    rw [he ha]; revert hst; cases b.state <;> simp [HeadState.claiming, HeadState.inCycle]⟩, .inl hc⟩

/-- R59: a head in no claiming state has neither claim nor cycle. -/
theorem Head.legal.free {w : Head} (hw : w.legal) (hst : w.state.claiming = false) : w.claim = none ∧ w.engine = none := by
  obtain ⟨hc, he⟩ := hw
  have hcycle : w.state.inCycle = false := by revert hst; cases w.state <;> simp [HeadState.claiming, HeadState.inCycle]
  rw [hst] at hc
  rw [hcycle] at he
  exact ⟨by simpa using hc, by simpa using he⟩

/-- R59: a head in no cycle state has no cycle. -/
theorem Head.legal.noCycle {w : Head} (hw : w.legal) (hst : w.state.inCycle = false) : w.engine = none := by
  obtain ⟨_, he⟩ := hw
  rw [hst] at he
  simpa using he

/-- A head that moves between two states that need neither claim nor cycle. -/
theorem Head.noClaimGained.free {a b : Head} (ha : a.state.claiming = false) (hb : b.state.claiming = false)
    (hc : b.claim = a.claim) (he : b.engine = a.engine) : a.noClaimGained b := fun hw =>
  Head.noClaimGained.lets (hc.trans (hw.free ha).1) hb (fun _ => he.trans (hw.free ha).2) hw

theorem Station.rest_claiming (s : Station) (st : HeadState) (h : st.claiming = false) : (s.rest st).claiming = false := by
  unfold Station.rest
  split
  · rfl
  · exact h

theorem Station.afterCycle_claiming (s : Station) (o : CycleOutcome) (queue : List Nat) :
    (s.afterCycle o queue).claiming = false := by
  unfold Station.afterCycle byQueue
  split
  · rfl
  · split <;> rfl

/-- R59, R73: the law of the claims. -/
def Station.claimsLegal (s : Station) : Prop := s.headsLegal ∧ s.keepOutLegal

/-- A change of the heads in which no claim is new keeps the law. -/
theorem Station.claimsLegal.of_gained {s t : Station} (hs : s.claimsLegal) (hk : t.keepOut = s.keepOut)
    (h : ∀ j, (s.head j).noClaimGained (t.head j)) : t.claimsLegal := by
  obtain ⟨hheads, hkeep⟩ := hs
  refine ⟨fun j => (h j (hheads j)).1, fun i j hij hgroup a b ha hb => ?_⟩
  obtain ⟨_, hi | ⟨hi, hgi⟩⟩ := h i (hheads i)
  · rw [hi] at ha; cases ha
  · obtain ⟨_, hj | ⟨hj, hgj⟩⟩ := h j (hheads j)
    · rw [hj] at hb; cases hb
    · rw [hk, hgi]
      rw [hgi, hgj] at hgroup
      exact hkeep i j hij hgroup a b (hi ▸ ha) (hj ▸ hb)

theorem Head.sameDuty.noClaimGained {a b : Head} (h : a.sameDuty b) : a.noClaimGained b := by
  obtain ⟨hcfg, hst, _, hclaim, hengine⟩ := h
  exact .keeps hclaim.symm (by rw [hcfg]) fun ha => by unfold Head.legal; rw [← hst, ← hclaim, ← hengine]; exact ha

theorem Head.sameRun.noClaimGained {a b : Head} (h : a.sameRun b) : a.noClaimGained b := by
  obtain ⟨hcfg, _, hclaim, hsta, hstb, hengine⟩ := h
  have claiming : ∀ st : HeadState, st.inCycle = true → st.claiming = true := by
    intro st; cases st <;> simp [HeadState.inCycle, HeadState.claiming]
  refine .keeps hclaim.symm (by rw [hcfg]) fun ⟨hac, hae⟩ => ⟨?_, ?_⟩
  · rw [← hclaim, hac, claiming _ hsta, claiming _ hstb]
  · rw [hengine, hae, hsta, hstb]

theorem Head.cutOff_engine (w : Head) : w.cutOff.engine = none := by
  unfold Head.cutOff
  split
  · assumption
  · rfl

theorem Head.faulted_noClaimGained (cause : Reason) (w : Head) : w.noClaimGained (w.faulted cause) :=
  .lets rfl rfl fun _ => w.cutOff_engine

/-- R65, R70: a change of the queue alone, and the rest of a SEEKING head. -/
theorem Head.idled_noClaimGained (s : Station) (w : Head) (queue : List Nat) :
    w.noClaimGained (({ w with queue := queue } : Head).idled (s.rest .idle)) := by
  unfold Head.idled
  split
  · next h => exact .free (by rw [show w.state = .seeking from h.1]; rfl) (s.rest_claiming _ rfl) rfl rfl
  · exact .keeps rfl rfl id

theorem Head.halted_noClaimGained (w : Head) : w.noClaimGained w.halted := by
  unfold Head.halted
  split
  case h_1 hst | h_2 hst => exact .free (by rw [hst]; rfl) rfl rfl rfl
  case h_3 hst | h_4 hst => exact .lets rfl rfl fun hw => hw.noCycle (by rw [hst]; rfl)
  case h_5 hst | h_6 hst => exact Head.sameRun.noClaimGained ⟨rfl, rfl, rfl, by rw [hst]; rfl, rfl, by simp⟩
  all_goals exact .rfl w

theorem mem_allFour (i : Fin 4) : i ∈ allFour := by revert i; decide

/-- R73: nobody of the group is too close to a claim that is granted. -/
theorem Station.arbitrate_granted {s : Station} {h : HeadNo} {v : Hole} (hg : s.arbitrate h v = .granted) (j : HeadNo)
    (hj : j ≠ h) (hgroup : (s.head j).cfg.group = (s.head h).cfg.group) (c : Claim) (hc : (s.head j).claim = some c) :
    s.keepOut.get (s.head h).cfg.group ≤ magnitude (c.claimX - (s.correctedPosition v).x) := by
  unfold Station.arbitrate at hg
  split at hg
  · cases hg
  · split at hg
    · cases hg
    · split at hg
      · cases hg
      · next hfar =>
        have hfar : s.tooClose h (s.correctedPosition v).x j = false := by
          simpa using fun hclose => hfar (List.any_eq_true.mpr ⟨j, mem_allFour j, hclose⟩)
        simpa [Station.tooClose, hj, hgroup, hc] using hfar

theorem magnitude_sub_comm (a b : Int) : magnitude (a - b) = magnitude (b - a) := by
  unfold magnitude; omega

/-- R73: a granted claim stands apart from the claims of its group. -/
theorem Station.grant_claimsLegal (s : Station) (h : HeadNo) (i : Nat) (v : Hole) (hst : (s.head h).state = .seeking)
    (hg : s.arbitrate h v = .granted) (hs : s.claimsLegal) : (s.grant h i v).claimsLegal := by
  obtain ⟨hheads, hkeep⟩ := hs
  have own := s.head_grant h h i v
  have other : ∀ j, j ≠ h → (s.grant h i v).head j = s.head j := fun j hj => by
    rw [Station.head_grant, if_neg (Ne.symm hj)]
  rw [if_pos rfl] at own
  refine ⟨fun j => ?_, fun j k hjk hgroup a b ha hb => ?_⟩
  · by_cases hj : j = h
    · subst hj
      rw [own]
      exact ⟨rfl, by rw [((hheads j).free (by rw [hst]; rfl)).2]; rfl⟩
    · rw [other j hj]; exact hheads j
  · rw [Station.grant_keepOut]
    by_cases hj : j = h
    · subst hj
      rw [other k hjk.symm] at hgroup hb
      rw [own] at hgroup ha ⊢
      cases ha
      rw [magnitude_sub_comm]
      exact Station.arbitrate_granted hg k hjk.symm hgroup.symm b hb
    · rw [other j hj] at hgroup ha ⊢
      by_cases hk : k = h
      · subst hk
        rw [own] at hgroup hb
        cases hb
        rw [hgroup]
        exact Station.arbitrate_granted hg j hj hgroup a ha
      · rw [other k hk] at hgroup hb
        exact hkeep j k hjk hgroup a b ha hb

theorem claimsLegal_headMoves : HeadMoves Station.claimsLegal where
  raise _ _ hs := hs
  quiet s h w hw hs :=
    hs.of_gained rfl (Station.heads_related Head.noClaimGained.rfl (s.head_setHead h · w) hw.noClaimGained)
  run s h w hw hs :=
    hs.of_gained rfl (Station.heads_related Head.noClaimGained.rfl (s.head_setHead h · w) hw.noClaimGained)
  toFault s h cause hs :=
    hs.of_gained (by simp) (s.toFault_related Head.noClaimGained.rfl h cause (Head.faulted_noClaimGained cause _))
  discard s h i why _ _ hs :=
    hs.of_gained (by simp) (Station.heads_related Head.noClaimGained.rfl (s.head_discard h · i why)
      (Head.idled_noClaimGained s _ _))
  grant s h i v hst _ _ hg hs := s.grant_claimsLegal h i v hst hg hs
  loseWindow s h hst hs := by
    refine hs.of_gained (by simp) (Station.heads_related Head.noClaimGained.rfl (s.head_loseWindow h) (.lets rfl ?_ ?_))
    · exact s.rest_claiming _ rfl
    · exact fun hw => hw.noCycle (by obtain h | h := hst <;> rw [h] <;> rfl)
  arm s h hst hs :=
    hs.of_gained rfl (Station.heads_related Head.noClaimGained.rfl (s.head_modHead h · _)
      (.keeps rfl rfl fun ⟨hc, he⟩ => by rw [hst] at hc he; exact ⟨hc, he⟩))
  engageOn s h c v hst hclaim _ hs :=
    hs.of_gained (by simp) (s.engageOn_related Head.noClaimGained.rfl h c.hole v fun _ _ =>
      .keeps rfl rfl fun _ => ⟨by rw [hclaim]; rfl, rfl⟩)
  finishCycle s h _ hs :=
    hs.of_gained (by simp) (s.finishCycle_related Head.noClaimGained.rfl h fun c o =>
      .lets rfl (s.afterCycle_claiming o _) fun _ => rfl)

/-- R59: no request gives a head a claim, and each leaves it legal. -/
theorem Head.Requested.noClaimGained {halt : Bool} {j : HeadNo} {w v : Head} (h : Head.Requested halt j w v) :
    w.noClaimGained v := by
  have resting : (if halt then HeadState.halted else .idle).claiming = false := by cases halt <;> rfl
  cases h with
  | stays => exact .rfl w
  | loses | joins => exact .keeps rfl rfl id
  | rests _ _ hst => exact .free (by rw [hst]; rfl) resting rfl rfl
  | joinsSeeking _ _ _ hst => exact .free (by rw [hst]; rfl) rfl rfl rfl
  | goesOn next hst hnext =>
    exact .free (by obtain h | h := hst <;> rw [h] <;> rfl) (by obtain rfl | rfl := hnext <;> rfl) rfl rfl
  | enabled hst => exact .free (by rw [hst]; rfl) resting rfl rfl
  | disabled hst => exact .lets rfl rfl fun hw => hw.noCycle hst
  | cleared hst => exact .free (by obtain h | h := hst <;> rw [h] <;> rfl) rfl rfl rfl
  | configured cfg hst => exact .free (by rw [hst]; rfl) (by rw [hst]; rfl) rfl rfl
  | engaged c b hst => exact .keeps rfl rfl fun ⟨hc, _⟩ => by rw [hst] at hc; exact ⟨hc, rfl⟩
  | thawed hst | cancelled hst => exact Head.sameRun.noClaimGained ⟨rfl, rfl, rfl, by rw [hst]; rfl, rfl, by simp⟩
  | reset => exact .lets rfl rfl fun _ => rfl

/-- A law about claims holds where no head holds one. -/
theorem Station.afterReset_claimsLegal (r : Ring) (a : Option Reply) : (Station.afterReset r a).claimsLegal := by
  refine ⟨fun j => ?_, fun i j _ _ x y hx => ?_⟩
  · rw [Station.head_afterReset]; exact ⟨rfl, rfl⟩
  · rw [Station.head_afterReset] at hx; cases hx

/-- R58: a new distance is stored when no two holders of the group stand closer. -/
theorem groupConfig_claimsLegal (g : Byte) (d : Word) (s : Station) (hs : s.claimsLegal) : (groupConfig g d s).1.claimsLegal := by
  unfold groupConfig
  obtain he | ⟨g, _, he⟩ := onHead_cases g _ s <;> rw [he]
  · exact hs
  · dsimp only
    split
    · exact hs
    · next hfar =>
      obtain ⟨hheads, hkeep⟩ := hs
      refine ⟨hheads, fun i j hij hgroup a b (ha : (s.head i).claim = some a) (hb : (s.head j).claim = some b) => ?_⟩
      change (s.head i).cfg.group = (s.head j).cfg.group at hgroup
      show (s.keepOut.set g _).get (s.head i).cfg.group ≤ _
      rw [Four.get_set]
      split
      · next hg =>
        have hpair : s.pairTooClose g (clampInt 0 3000000 d.toInt) i j = false := by
          simpa using fun hclose =>
            hfar (List.any_eq_true.mpr ⟨i, mem_allFour i, List.any_eq_true.mpr ⟨j, mem_allFour j, hclose⟩⟩)
        simpa [Station.pairTooClose, hij, ← hg, ← hgroup, ha, hb] using hpair
      · exact hkeep i j hij hgroup a b ha hb

theorem requestEffect_claimsLegal (i : Instr) (f : Station → Station × Reply) (hf : requestEffect i = some f) (s : Station)
    (hs : s.claimsLegal) : (f s).1.claimsLegal := by
  obtain hk | rfl | ⟨g, d, rfl⟩ := requestEffect_keepOut i f hf s
  · exact hs.of_gained hk fun j => (requestEffect_requested i f hf s j).noClaimGained
  · cases hf; exact Station.afterReset_claimsLegal _ _
  · cases hf; exact groupConfig_claimsLegal g d s hs

theorem Station.withHalt_claimsLegal (f : Ring → Ring) (s : Station) (hs : s.claimsLegal) : (s.withHalt f).claimsLegal := by
  unfold Station.withHalt
  dsimp only
  split
  · refine hs.of_gained (by simp) fun j => ?_
    rw [Station.head_haltArrives]
    exact Head.halted_noClaimGained _
  · exact hs

/-- Every operation from which the commands are made keeps the law of the claims. -/
theorem claimsLegal_kept : Kept Station.claimsLegal where
  book _ _ _ _ hs := hs
  raise _ _ hs := hs
  headerHalt s _ hs := s.withHalt_claimsLegal _ hs
  stopLevel s b hs := by
    unfold Station.stopLevel
    split
    · exact s.withHalt_claimsLegal _ hs
    · exact hs
  toFault := claimsLegal_headMoves.toFault
  beginOutbound := claimsLegal_headMoves.beginOutbound
  carriageOutbound := claimsLegal_headMoves.carriageOutbound
  toolOutbound := claimsLegal_headMoves.toolOutbound
  carriageReturn := claimsLegal_headMoves.carriageReturn
  toolReturn := claimsLegal_headMoves.toolReturn
  drain s l hs := by
    obtain ⟨_, _, hkeepOut⟩ := s.drain_keeps l
    exact hs.of_gained hkeepOut fun j => by rw [Station.head_drain]; exact .rfl _
  request := requestEffect_claimsLegal
  powerOn _ _ _ _ := Station.afterReset_claimsLegal _ _
  assertReset _ hs := hs
  spinUpLimit := claimsLegal_headMoves.spinUpLimit
  toolNotHome := claimsLegal_headMoves.toolNotHome
  rivetFeedLimit := claimsLegal_headMoves.rivetFeedLimit
  dwellComplete := claimsLegal_headMoves.dwellComplete

/-- Settles O56: the law of the claims is one that every operation keeps. -/
theorem everyStepKeepsClaimsAndKeepOut : Obligations.EveryStepKeepsClaimsAndKeepOut := by
  intro s t hheads hkeep hstep
  exact claimsLegal_kept.step s t hstep ⟨hheads, hkeep⟩

end Sys2Proof.Machine
end

section
/-!
The halt (R64): what brings it moves every head out of the states that start work, and nothing moves one back under it.
-/
namespace Sys2Proof.Machine

/-- The law says nothing of a part that takes no events, nor while the halt is absent. -/
theorem Station.haltLegal.of_quiet {s : Station} (h : s.ring.active = true → s.ring.halt = false) : s.haltLegal :=
  fun ha hh => by rw [h ha] at hh; cases hh

/-- While the halt is present, a head that starts no work starts none afterwards. -/
def Head.noWorkStarted (halt : Bool) (a b : Head) : Prop :=
  halt = true → a.state.startsWork = false → b.state.startsWork = false

theorem Head.noWorkStarted.rfl {halt : Bool} (w : Head) : w.noWorkStarted halt w := fun _ h => h

/-- A head that did not stand in such a state does not matter to the law. -/
theorem Head.noWorkStarted.started {halt : Bool} {a b : Head} (h : a.state.startsWork = true) : a.noWorkStarted halt b :=
  fun _ ha => by rw [h] at ha; cases ha

theorem Head.noWorkStarted.stands {halt : Bool} {a b : Head} (h : b.state.startsWork = false) : a.noWorkStarted halt b :=
  fun _ _ => h

/-- A change of the heads that starts no work, and that neither brings the halt nor makes the part active, keeps the law. -/
theorem Station.haltLegal.of_started {s t : Station} (hs : s.haltLegal)
    (hr : t.ring.active = s.ring.active ∧ (t.ring.halt = true → s.ring.halt = true))
    (h : ∀ j, (s.head j).noWorkStarted s.ring.halt (t.head j)) : t.haltLegal := fun ha hh j => by
  obtain ⟨hactive, hhalt⟩ := hr
  exact h j (hhalt hh) (hs (hactive ▸ ha) (hhalt hh) j)

theorem Station.haltLegal.of_ring {s t : Station} (hs : s.haltLegal) (hr : t.ring = s.ring)
    (h : ∀ j, (s.head j).noWorkStarted s.ring.halt (t.head j)) : t.haltLegal := hs.of_started (by rw [hr]; exact ⟨rfl, id⟩) h

theorem Station.rest_startsWork (s : Station) (st : HeadState) (h : s.ring.halt = true) : (s.rest st).startsWork = false := by
  unfold Station.rest
  rw [if_pos h]; rfl

theorem Station.afterCycle_startsWork (s : Station) (o : CycleOutcome) (queue : List Nat) (h : s.ring.halt = true) :
    (s.afterCycle o queue).startsWork = false := by
  unfold Station.afterCycle
  rw [if_pos (.inl h)]; rfl

theorem HeadState.startsWork_of_inCycle {st : HeadState} (h : st.inCycle = true) : st.startsWork = false := by
  revert h; cases st <;> simp [HeadState.inCycle, HeadState.startsWork]

/-- R64: the halt leaves no head in a state that starts work. -/
theorem Head.halted_startsWork (w : Head) : w.halted.state.startsWork = false := by
  unfold Head.halted
  split
  case h_7 hst | h_8 hst | h_9 hst | h_10 hst => rw [hst]; rfl
  all_goals rfl

theorem haltLegal_headMoves : HeadMoves Station.haltLegal where
  raise _ _ hs := hs
  quiet s h w hw hs := by
    obtain ⟨_, hst, _⟩ := hw
    refine hs.of_ring rfl (Station.heads_related Head.noWorkStarted.rfl (s.head_setHead h · w) fun _ hstart => ?_)
    rwa [← hst]
  run s h w hw hs := by
    obtain ⟨_, _, _, _, hst, _⟩ := hw
    exact hs.of_ring rfl (Station.heads_related Head.noWorkStarted.rfl (s.head_setHead h · w)
      (.stands (HeadState.startsWork_of_inCycle hst)))
  toFault s h cause hs := hs.of_ring (by simp) (s.toFault_related Head.noWorkStarted.rfl h cause (.stands rfl))
  discard s h i why hst _ hs := hs.of_ring (by simp)
    (Station.heads_related Head.noWorkStarted.rfl (s.head_discard h · i why) (.started (by rw [hst]; rfl)))
  grant s h i v hst _ _ _ hs := hs.of_ring (by simp)
    (Station.heads_related Head.noWorkStarted.rfl (s.head_grant h · i v) (.started (by rw [hst]; rfl)))
  loseWindow s h _ hs := hs.of_ring (by simp)
    (Station.heads_related Head.noWorkStarted.rfl (s.head_loseWindow h) fun hh _ => s.rest_startsWork _ hh)
  arm s h hst hs := hs.of_ring rfl
    (Station.heads_related Head.noWorkStarted.rfl (s.head_modHead h · _) (.started (by rw [hst]; rfl)))
  engageOn s h c v _ _ _ hs := hs.of_ring (by simp)
    (s.engageOn_related Head.noWorkStarted.rfl h c.hole v fun _ _ => .stands rfl)
  finishCycle s h _ hs := hs.of_ring (by simp)
    (s.finishCycle_related Head.noWorkStarted.rfl h fun c o hh _ => s.afterCycle_startsWork o _ hh)

/-- R64: no request starts work under the halt: each that would asks for its absence, or leaves the head HALTED. -/
theorem Head.Requested.noWorkStarted {halt : Bool} {j : HeadNo} {w v : Head} (h : Head.Requested halt j w v) :
    w.noWorkStarted halt v := by
  have absent : halt = false → w.noWorkStarted halt v := fun hh hhalt => by rw [hh] at hhalt; cases hhalt
  cases h with
  | stays | loses | joins | configured => exact fun _ hw => hw
  | rests | enabled => exact fun hh _ => by rw [if_pos hh]; rfl
  | joinsSeeking _ _ _ _ hh | goesOn _ _ _ hh => exact absent hh
  | disabled | cleared | engaged | thawed | cancelled | reset => exact .stands rfl

/-- R151: the halt that a header or pin event brings moves every head out of the states that start work. -/
theorem Station.withHalt_haltLegal (f : Ring → Ring) (s : Station) (hf : (f s.ring).active = s.ring.active) (hs : s.haltLegal) :
    (s.withHalt f).haltLegal := by
  unfold Station.withHalt
  dsimp only
  split
  · intro _ _ j
    rw [Station.head_haltArrives]
    exact Head.halted_startsWork _
  · next hno =>
    refine hs.of_started ⟨hf, fun hh => ?_⟩ fun j => .rfl _
    cases hbefore : s.ring.halt with
    | true => rfl
    | false => exact absurd ⟨hbefore, hh⟩ hno

theorem Station.afterReset_haltLegal (r : Ring) (a : Option Reply) : (Station.afterReset r a).haltLegal := fun _ _ j => by
  rw [Station.head_afterReset]; rfl

/-- Every operation from which the commands are made keeps the law of the halt. -/
theorem haltLegal_kept : Kept Station.haltLegal where
  book s r m hr hs := by
    obtain ⟨haddress, hreset, hstop, hheader, _, _⟩ := hr
    refine hs.of_started ⟨?_, ?_⟩ fun j => .rfl _
    · simp [Ring.active, Ring.transparent, haddress, hreset]
    · simp [Ring.halt, hstop, hheader]
  raise _ _ hs := hs
  headerHalt s _ hs := s.withHalt_haltLegal _ rfl hs
  stopLevel s b hs := by
    unfold Station.stopLevel
    split
    · exact s.withHalt_haltLegal _ rfl hs
    · next ha => exact .of_quiet fun hactive => absurd hactive ha
  toFault := haltLegal_headMoves.toFault
  beginOutbound := haltLegal_headMoves.beginOutbound
  carriageOutbound := haltLegal_headMoves.carriageOutbound
  toolOutbound := haltLegal_headMoves.toolOutbound
  carriageReturn := haltLegal_headMoves.carriageReturn
  toolReturn := haltLegal_headMoves.toolReturn
  drain s l hs := by
    obtain ⟨hring, _, _⟩ := s.drain_keeps l
    exact hs.of_ring hring fun j => by rw [Station.head_drain]; exact .rfl _
  request i f hf s hs :=
    hs.of_started (requestEffect_halt i f hf s) fun j => (requestEffect_requested i f hf s j).noWorkStarted
  powerOn _ _ _ _ := Station.afterReset_haltLegal _ _
  assertReset _ _ := .of_quiet fun ha => by simp [Station.assertReset, Ring.active] at ha
  spinUpLimit := haltLegal_headMoves.spinUpLimit
  toolNotHome := haltLegal_headMoves.toolNotHome
  rivetFeedLimit := haltLegal_headMoves.rivetFeedLimit
  dwellComplete := haltLegal_headMoves.dwellComplete

/-- Settles O57: the law of the halt is one that every operation keeps. -/
theorem everyStepKeepsTheHaltLaw : Obligations.EveryStepKeepsTheHaltLaw := by
  intro s t hs hstep
  exact haltLegal_kept.step s t hstep hs

end Sys2Proof.Machine
end

section
/-!
The requests to heads and groups: configuration (R57, R58), in and out of service (R60 to R62, R87), the assignment queue (R65,
R67, R68) and START (R76).
-/
namespace Sys2Proof.Machine

/-- Settles O47: a request that names a head or a group reads that number before anything else. -/
theorem numbersAboveThreeAreRefused : Obligations.NumbersAboveThreeAreRefused := by
  intro h s ha hh
  have refused : ∀ f : HeadNo → Station → Station × Reply, s.onRequest (onHead h f) = .next (s.refusedWith .badIndex) :=
    fun f => State.onRequest_refused ha (onHead_above h f _ hh)
  exact ⟨fun _ _ _ _ _ _ _ _ _ _ _ => refused _, fun _ => refused _, refused _, refused _, refused _, fun _ => refused _,
    refused _, refused _, refused _, refused _⟩

/-! ## Configuration -/

theorem clampInt_eq (lo hi v : Int) (h : lo ≤ hi) : clampInt lo hi v = max lo (min hi v) := by
  unfold clampInt
  split
  · omega
  · split <;> omega

theorem clampNat_eq (lo hi v : Nat) (h : lo ≤ hi) : clampNat lo hi v = max lo (min hi v) := by
  unfold clampNat
  split
  · omega
  · split <;> omega

theorem HeadKind.ofCode_code (k : HeadKind) : HeadKind.ofCode k.code = some k := by cases k <;> rfl

theorem StartMode.ofCode_code (m : StartMode) : StartMode.ofCode m.code = some m := by cases m <;> rfl

theorem HeadKind.ofCode_above (b : Byte) (h : 1 < b.toNat) : HeadKind.ofCode b = none := by
  unfold HeadKind.ofCode
  split
  case h_3 => rfl
  all_goals omega

theorem StartMode.ofCode_above (b : Byte) (h : 1 < b.toNat) : StartMode.ofCode b = none := by
  unfold StartMode.ofCode
  split
  case h_3 => rfl
  all_goals omega

/-- R57: a group above 3 is clamped to 3. -/
theorem clampedGroup_eq (group : Byte) :
    (if group.toNat < 3 then Fin.ofNat 4 group.toNat else 3) = Fin.ofNat 4 (min 3 group.toNat) := by
  split
  · next h => rw [Nat.min_eq_right (Nat.le_of_lt h)]
  · next h => rw [Nat.min_eq_left (by omega)]; rfl

/-- R57: CLAMPED is answered when some stored value is not the one sent. -/
theorem HeadConfig.moved_iff (c : HeadConfig) (group : Byte) (ox ot w band : Word) (count : Byte) (shift home : Word) :
    c.moved group ox ot w band count shift home = true ↔
      ¬ (c.group.val = group.toNat ∧ c.offsetX = ox.toInt ∧ c.offsetT = ot.toInt ∧ c.window = w.toInt
        ∧ c.settleBand = band.toInt ∧ c.settleCount = count.toNat ∧ c.shiftLimit = shift.toInt
        ∧ c.homeBand = home.toInt) := by
  simp only [Decidable.not_and_iff_not_or_not]
  exact decide_eq_true_iff

/-- R57: HEAD CONFIG of an OFFLINE head, with codes of the lists. -/
theorem headConfig_offline (h : HeadNo) (k : HeadKind) (f : Face) (group : Byte) (ox ot w band : Word) (count : Byte)
    (shift : Word) (m : StartMode) (home : Word) (s : Station) (hst : (s.head h).state = .offline) :
    headConfig (headByte h) k.code f.code group ox ot w band count shift m.code home s
      = (s.setHead h { s.head h with cfg := .clamped k f group ox ot w band count shift m home },
         if (HeadConfig.clamped k f group ox ot w band count shift m home).moved group ox ot w band count shift home
         then .clamped [] else .done []) := by
  unfold headConfig
  rw [onHead_headByte]
  simp only [if_neg (not_not_intro hst), HeadKind.ofCode_code, Face.ofCode_code, StartMode.ofCode_code]
  rfl

/-- R57: the checks of HEAD CONFIG in their order. -/
theorem headConfig_refused (h : HeadNo) (kind face group : Byte) (ox ot w band : Word) (count : Byte) (shift : Word)
    (mode : Byte) (home : Word) (s : State) (why : Denial)
    (hwhy : firstFailing (headConfigChecks h kind face mode s) = some why) :
    headConfig (headByte h) kind face group ox ot w band count shift mode home s.toStation = (s.toStation, .refused why) := by
  unfold headConfig
  rw [onHead_headByte]
  simp only [headConfigChecks, firstFailing_cons_some, firstFailing_nil, decide_eq_true_eq, decide_eq_false_iff_not,
    reduceCtorEq, and_false, or_false] at hwhy
  obtain ⟨hst, rfl⟩ | ⟨hst, hcode, rfl⟩ := hwhy
  · rw [if_pos hst]
  · rw [if_neg hst]
    split
    · next hk hf hm =>
      obtain hbad | hbad | hbad := hcode
      · rw [HeadKind.ofCode_above kind hbad] at hk; cases hk
      · rw [Face.ofCode_above face hbad] at hf; cases hf
      · rw [StartMode.ofCode_above mode hbad] at hm; cases hm
    · rfl

/-- Settles O41: the clamped record is stored, and CLAMPED says that it is not the one sent. -/
theorem headConfigStoresClampedValues : Obligations.HeadConfigStoresClampedValues := by
  intro h kind face group ox ot w band count shift mode home s ha
  refine ⟨fun hok k f m c hk hf hm hc => ?_, fun why hwhy => State.onRequest_refused ha
    (headConfig_refused h kind face group ox ot w band count shift mode home s why hwhy)⟩
  subst hk hf hm
  have hst : (s.head h).state = .offline := by
    simp only [headConfigChecks, firstFailing_cons_none, decide_eq_false_iff_not, Decidable.not_not] at hok
    exact hok.1
  have hclamped : HeadConfig.clamped k f group ox ot w band count shift m home = c := by
    simp (disch := decide) only [hc, HeadConfig.clamped, clampInt_eq, clampNat_eq, clampedGroup_eq]
  have heff := headConfig_offline h k f group ox ot w band count shift m home s.toStation hst
  rw [hclamped] at heff
  split
  · next hsame =>
    rw [if_neg fun hmoved => (c.moved_iff group ox ot w band count shift home).mp hmoved hsame] at heff
    exact State.onRequest_done ha heff
  · next hmoved =>
    rw [if_pos ((c.moved_iff group ox ot w band count shift home).mpr hmoved)] at heff
    exact State.onRequest_clamped ha heff

theorem keepOutClamped_eq (d : Word) : clampInt 0 3000000 d.toInt = keepOutClamped d := clampInt_eq _ _ _ (by decide)

/-- R58: the check of GROUP CONFIG. -/
theorem anyPairTooClose_eq (g : Fin 4) (d : Int) (s : State) :
    (allFour.any fun i => allFour.any fun j => s.toStation.pairTooClose g d i j) = holdersCloserThan g d s := by
  unfold holdersCloserThan
  congr 1; funext i; congr 1; funext j
  unfold Station.pairTooClose
  cases (s.head i).claim with
  | none => simp
  | some a => cases (s.head j).claim <;> simp [Bool.and_assoc]

/-- Settles O42: the clamped distance is stored unless two holders of the group stand closer. -/
theorem groupConfigStoresTheKeepOut : Obligations.GroupConfigStoresTheKeepOut := by
  intro g d s ha
  have heff : groupConfig (headByte g) d s.toStation
      = if holdersCloserThan g (keepOutClamped d) s then (s.toStation, .refused .inUse)
        else ({ s.toStation with keepOut := s.keepOut.set g (keepOutClamped d) },
          if keepOutClamped d ≠ d.toInt then .clamped [] else .done []) := by
    unfold groupConfig
    simp only [onHead_headByte, keepOutClamped_eq, anyPairTooClose_eq]
  refine ⟨fun hok => ?_, fun why hwhy => ?_⟩
  · simp only [groupConfigChecks, firstFailing_cons_none] at hok
    rw [hok.1, if_neg Bool.false_ne_true] at heff
    split
    · next hsame =>
      rw [if_neg (not_not_intro hsame)] at heff
      exact State.onRequest_done ha heff
    · next hmoved =>
      rw [if_pos hmoved] at heff
      exact State.onRequest_clamped ha heff
  · simp only [groupConfigChecks, firstFailing_cons_some, firstFailing_nil, reduceCtorEq, and_false, or_false] at hwhy
    obtain ⟨hclose, rfl⟩ := hwhy
    rw [if_pos hclose] at heff
    exact State.onRequest_refused ha heff

/-! ## In and out of service -/

/-- R60: HEAD ENABLE. -/
theorem headEnable_eq (h : HeadNo) (s : State) :
    headEnable (headByte h) s.toStation = answered (firstFailing (headEnableChecks h s))
      (s.toStation.setHead h { s.head h with state := if s.ring.halt then .halted else .idle }) s.toStation := by
  simp only [headEnable, onHead_headByte, headEnableChecks, answered_cons, answered_nil, decide_eq_true_eq, Station.mapHas,
    Bool.not_eq_true', Bool.and_eq_false_iff]
  rfl

theorem HeadState.inCycle_iff (st : HeadState) : st.inCycle = true ↔ st = .engaged ∨ st = .frozen ∨ st = .retracting := by
  cases st <;> simp [HeadState.inCycle]

/-- R73, R35: the hole records once the claim of a head has been released. -/
def Station.releasedHoles (h : HeadNo) (s : Station) : Table Hole :=
  match (s.head h).claim with
  | none => s.table.holes
  | some c => match s.hole c.hole with
    | none => s.table.holes
    | some v => Table.put s.table.holes c.hole { v with claimant := none }

/-- R73, R35: a release empties the claim record and clears the claimant, and changes nothing else. -/
theorem Station.releaseClaim_eq (h : HeadNo) (s : Station) :
    s.releaseClaim h =
      { s with
        heads := s.heads.set h { s.head h with claim := none }
        table := { s.table with holes := s.releasedHoles h } } := by
  unfold Station.releaseClaim Station.releasedHoles
  cases hc : (s.head h).claim with
  | none =>
    have hsame : s.heads.set h { s.head h with claim := none } = s.heads := by
      rw [← hc]; exact s.heads.set_get h
    dsimp only
    rw [hsame]
  | some c =>
    dsimp only
    unfold Station.modHole
    cases s.hole c.hole with
    | none => rfl
    | some v => rfl

/-- R61, R87: a head that is disabled: its claim released, then OFFLINE with an empty queue and its gate moved. -/
theorem Station.disabled_eq (h : HeadNo) (s : Station) :
    (s.releaseClaim h).modHead h (Head.retire Gate.letGo) =
      { s with
        heads := s.heads.set h (({ s.head h with claim := none } : Head).retire Gate.letGo)
        table := { s.table with holes := s.releasedHoles h } } := by
  simp only [Station.releaseClaim_eq, Station.modHead, Station.setHead, Station.head, Four.get_set_same, Four.set_set]

/-- R61: HEAD DISABLE of a head that is in service or in FAULT. -/
theorem headDisable_eq (h : HeadNo) (s : State) (hst : (s.head h).state ≠ .offline) :
    headDisable (headByte h) s.toStation = answered (firstFailing (headDisableChecks h s))
      { s.toStation with
        heads := s.heads.set h (({ s.head h with claim := none } : Head).retire Gate.letGo)
        table := { s.table with holes := s.toStation.releasedHoles h } } s.toStation := by
  simp only [headDisable, onHead_headByte, headDisableChecks, answered_cons, answered_nil, decide_eq_true_eq,
    HeadState.inCycle_iff, if_neg hst, Station.disabled_eq]

/-- R61: HEAD DISABLE of an OFFLINE head changes nothing. -/
theorem headDisable_offline (h : HeadNo) (s : State) (hst : (s.head h).state = .offline) :
    headDisable (headByte h) s.toStation = (s.toStation, .done []) := by
  simp only [headDisable, onHead_headByte, hst, if_true]
  rfl

/-- R62: HEAD CLEAR. -/
theorem headClear_eq (h : HeadNo) (s : State) :
    headClear (headByte h) s.toStation = answered (firstFailing (headClearChecks h s))
      (s.toStation.modHead h (Head.retire Gate.clear)) s.toStation := by
  simp only [headClear, onHead_headByte, headClearChecks, answered_cons, answered_nil, decide_eq_true_eq]

/-- R87: the table of HEAD CLEAR; a gate in REJOIN stands. -/
theorem Gate.clear_eq (g : Gate) :
    g.clear = match g.state, g.passed with
      | .opened, none => g
      | .opened, some sp => { g with state := .rejoin, held := some sp }
      | .held, _ => { g with state := .rejoin }
      | .rejoin, _ => g := by
  obtain ⟨state, passed, held, sent, deviation, holdDistance⟩ := g
  cases state with
  | opened => cases passed <;> rfl
  | held => rfl
  | rejoin => rfl

/-- Settles O43: each of the three requests does what its checks say, and moves the gate by its table. -/
theorem headsGoInAndOutOfService : Obligations.HeadsGoInAndOutOfService := by
  refine ⟨fun h s w ha hw => ?_, fun g => ⟨g.letGo_eq, g.clear_eq⟩⟩
  subst hw
  obtain ⟨henable, hnoEnable⟩ := State.onRequest_answered ha (headEnable_eq h s)
  obtain ⟨hclear, hnoClear⟩ := State.onRequest_answered ha (headClear_eq h s)
  refine ⟨henable, hnoEnable, fun hok => ⟨fun hst => State.onRequest_done ha (headDisable_offline h s hst), fun hst => ?_⟩,
    fun why hwhy => ?_, hclear, hnoClear⟩
  · obtain ⟨hdisable, _⟩ := State.onRequest_answered ha (headDisable_eq h s hst)
    exact hdisable hok
  · have hst : (s.head h).state ≠ .offline := fun hst => by
      simp [headDisableChecks, hst, firstFailing] at hwhy
    obtain ⟨_, hrefused⟩ := State.onRequest_answered ha (headDisable_eq h s hst)
    exact hrefused why hwhy

/-! ## The queue -/

theorem HeadKind.needed_eq_none_iff (k : HeadKind) (v : Hole) :
    k.needed v = none ↔ (k = .drill ∧ v.drill = none) ∨ (k = .set ∧ v.set = none) := by
  cases k <;> simp [HeadKind.needed]

/-- R67, R65: a hole joins the tail of a queue. -/
theorem Station.joined_eq (h : HeadNo) (i : Nat) (s : Station) :
    (s.modHead h fun w => { w with queue := w.queue ++ [i] }).seekIfWork h =
      s.setHead h
        { s.head h with
          queue := (s.head h).queue ++ [i]
          state := if (s.head h).state = .idle ∧ s.table.jig = .working ∧ s.ring.halt = false then .seeking
            else (s.head h).state } := by
  rw [Station.seekIfWork_eq_modHead]
  simp only [Station.modHead, Station.head_setHead_same, Station.setHead_setHead, Station.setHead_table, Station.setHead_ring]
  congr 1
  split
  · next hw => rw [if_pos ⟨hw.1, hw.2.2.1, hw.2.2.2⟩]
  · next hw => rw [if_neg fun hc => hw ⟨hc.1, by simp, hc.2⟩]

/-- R67: the checks of ASSIGN that read the queue and the hole record. -/
theorem assignDenial_eq (w : Head) (i : Nat) (v : Hole) :
    assignDenial w i v = firstFailing
      [(decide (8 ≤ w.queue.length), .full), (decide (i ∈ w.queue), .duplicate), (decide (v.face ≠ w.cfg.face), .face),
       (decide ((w.cfg.kind = .drill ∧ v.drill = none) ∨ (w.cfg.kind = .set ∧ v.set = none)), .operation)] := by
  simp only [assignDenial, firstFailing, HeadKind.needed_eq_none_iff, decide_eq_true_eq]

/-- R67: the checks of ASSIGN in their order, and what it does when none fails. -/
theorem assign_eq (h : HeadNo) (i : Half) (s : State) :
    assign (headByte h) i s.toStation = answered (firstFailing (assignChecks h i s))
      ((s.toStation.modHead h fun w => { w with queue := w.queue ++ [i.toNat] }).seekIfWork h) s.toStation := by
  rw [assign, onHead_headByte]
  simp only [assignTo, assignChecks, answered_cons, answered_nil, decide_eq_true_eq]
  refine ite_congr rfl (fun _ => rfl) fun _ => ite_congr rfl (fun _ => rfl) fun _ => ?_
  cases hv : s.hole i.toNat with
  | none => rfl
  | some v =>
    rw [if_neg (Option.some_ne_none v)]
    show answered (assignDenial (s.head h) i.toNat v) _ _ = _
    simp only [assignDenial_eq, answered_cons, answered_nil, Option.any_some, decide_eq_true_eq]

theorem Head.idled_eq (next : HeadState) (w : Head) :
    w.idled next = { w with state := if w.state = .seeking ∧ w.queue = [] then next else w.state } := by
  unfold Head.idled
  split <;> rfl

/-- R68: the entries that WITHDRAW leaves are those of the claimed hole. -/
theorem Head.kept_eq (w : Head) : w.kept = w.queue.filter fun i => decide (w.claim.map (fun c => c.hole) = some i) := by
  unfold Head.kept
  cases w.claim with
  | none => simp
  | some c =>
    refine List.filter_congr fun i _ => Bool.eq_iff_iff.mpr ⟨fun h => ?_, fun h => ?_⟩
    · exact decide_eq_true (congrArg some (beq_iff_eq.mp h).symm)
    · exact beq_iff_eq.mpr (Option.some.inj (of_decide_eq_true h)).symm

/-- R68, R65: WITHDRAW. -/
theorem withdraw_eq (h : HeadNo) (s : Station) :
    withdraw (headByte h) s =
      (s.setHead h
        { s.head h with
          queue := (s.head h).kept
          state := if (s.head h).state = .seeking ∧ (s.head h).kept = [] then s.rest .idle else (s.head h).state },
        .done [BitVec.ofNat 8 ((s.head h).queue.length - (s.head h).kept.length)]) := by
  rw [withdraw, onHead_headByte]
  simp only [Station.idleIfEmpty_eq_modHead, Station.modHead, Station.head_setHead_same, Station.setHead_setHead,
    Head.idled_eq, u8]
  rfl

/-- Settles O44: ASSIGN by its checks, and WITHDRAW, which has none. -/
theorem assignJoinsAndWithdrawLeaves : Obligations.AssignJoinsAndWithdrawLeaves := by
  refine ⟨fun h i s w ha hw => ?_, fun h s w kept ha hw hk => ?_⟩
  · subst hw
    obtain ⟨hdone, hrefused⟩ := State.onRequest_answered ha (assign_eq h i s)
    rw [Station.joined_eq] at hdone
    exact ⟨hdone, hrefused⟩
  · subst hw
    rw [← Head.kept_eq] at hk
    subst hk
    exact State.onRequest_done ha (withdraw_eq h s.toStation)

/-! ## START -/

/-- R76: the set of the heads started, bit by bit. -/
theorem Station.startSet_eq (set : Byte) (s : State) :
    s.toStation.startSet set =
      (if started set s 0 then 1 else 0) + (if started set s 1 then 2 else 0) + (if started set s 2 then 4 else 0)
        + (if started set s 3 then 8 else 0) := by
  show (allFour.filter (started set s)).foldl (fun (m : Byte) h => m ||| BitVec.ofNat 8 (2 ^ h.val)) 0 = _
  generalize started set s = p
  simp only [allFour, List.filter_cons, List.filter_nil]
  generalize p 0 = a, p 1 = b, p 2 = c, p 3 = d
  revert a b c d
  decide

/-- R76: START. -/
theorem start_eq (set : Byte) (s : State) :
    start set s.toStation =
      if allFour.any (started set s) then
        (allFour.foldl (fun u h => if started set s h then u.engage h else u) s.toStation, .done [s.toStation.startSet set])
      else (s.toStation, .refused .state) := rfl

/-- Settles O45: START engages the named heads in turn, when there is one. -/
theorem startEngagesTheArmedHeadsNamed : Obligations.StartEngagesTheArmedHeadsNamed := by
  intro set s ha
  refine ⟨fun hok => ?_, fun why hwhy => ?_⟩
  · simp only [startChecks, firstFailing_cons_none, Bool.not_eq_false'] at hok
    have heff := start_eq set s
    rw [if_pos hok.1, Station.startSet_eq] at heff
    exact State.onRequest_done ha heff
  · simp only [startChecks, firstFailing_cons_some, firstFailing_nil, reduceCtorEq, and_false, or_false,
      Bool.not_eq_true'] at hwhy
    obtain ⟨hnone, rfl⟩ := hwhy
    exact State.onRequest_refused ha ((start_eq set s).trans (if_neg (by simp [hnone])))

end Sys2Proof.Machine
end

section
/-!
Heads that go on: RESUME (R64, R148), CANCEL (R149), and the ramped retract from every stage (R115, R123, R126, R134, R140).
-/
namespace Sys2Proof.Machine

/-! ## RESUME and CANCEL -/

/-- R64: RESUME of a HALTED head. -/
theorem resume_halted (h : HeadNo) (s : Station) (hh : s.ring.halt = false) (hst : (s.head h).state = .halted) :
    resume (headByte h) s =
      (s.setHead h { s.head h with state := if (s.head h).queue ≠ [] ∧ s.table.jig = .working then .seeking else .idle },
        .done []) := by
  rw [resume, onHead_headByte]
  simp only [hh, hst]
  rfl

/-- R148: RESUME of a FROZEN head. -/
theorem resume_frozen (h : HeadNo) (s : Station) (hh : s.ring.halt = false) (hst : (s.head h).state = .frozen) :
    resume (headByte h) s =
      (s.setHead h { s.head h with state := .engaged, engine := (s.head h).engine.map Cycle.thaw }, .done []) := by
  rw [resume, onHead_headByte]
  simp only [hh, hst]
  rfl

/-- R64: the checks of RESUME. -/
theorem resume_refused (h : HeadNo) (s : State) (why : Denial) (hwhy : firstFailing (resumeChecks h s) = some why) :
    resume (headByte h) s.toStation = (s.toStation, .refused why) := by
  rw [resume, onHead_headByte]
  simp only [resumeChecks, firstFailing_cons_some, firstFailing_nil, decide_eq_true_eq, reduceCtorEq, and_false, or_false]
    at hwhy
  obtain ⟨hh, rfl⟩ | ⟨hh, ⟨hhalted, hfrozen⟩, rfl⟩ := hwhy
  · rw [if_pos hh]
  · rw [if_neg (by rw [hh]; exact Bool.false_ne_true)]
    split
    · next hst => exact absurd hst hhalted
    · next hst => exact absurd hst hfrozen
    all_goals rfl

/-- R149: CANCEL. -/
theorem cancel_eq (h : HeadNo) (s : State) :
    cancel (headByte h) s.toStation = answered (firstFailing (cancelChecks h s))
      (s.toStation.setHead h { s.head h with state := .retracting, engine := (s.head h).engine.map Cycle.cancel })
      s.toStation := by
  simp only [cancel, onHead_headByte, cancelChecks, answered_cons, answered_nil, decide_eq_true_eq]
  rfl

/-! ## The ramped retract -/

/-- R126: RETRACT goes on. -/
theorem Cycle.rampedRetract_retracting (c : Cycle) (h : c.work.retracting = true) : c.rampedRetract = c := if_pos h

/-- R126: STOPPING goes on, and RETRACT follows it. -/
theorem Cycle.rampedRetract_stopping (c : Cycle) (h : c.work.retracting = false) (hp : c.phase = .stopping) :
    c.rampedRetract = { c with work := c.work.toRetract } := by
  unfold Cycle.rampedRetract
  rw [h, if_neg Bool.false_ne_true, if_pos hp]

/-- R126: a tool that moves outward goes on outward. -/
theorem Cycle.rampedRetract_outward (c : Cycle) (h : c.work.retracting = false) (hp : c.phase ≠ .stopping)
    (ho : c.work.outward = true) : c.rampedRetract = { c with phase := .run, work := c.work.toRetract } := by
  unfold Cycle.rampedRetract
  rw [h, if_neg Bool.false_ne_true, if_neg hp, if_pos ho]

theorem Work.not_retracting_of_not_outward (w : Work) (h : w.outward = false) : w.retracting = false := by
  cases w with
  | drill d => exact (Bool.or_eq_false_iff.mp h).1
  | set d => exact h

/-- R126: any other tool: one in a stage that does not move it, or that stands at a boundary, retracts from rest; one that moves
inward first stops. -/
theorem Cycle.rampedRetract_inward (c : Cycle) (ho : c.work.outward = false) (hp : c.phase ≠ .stopping) :
    c.rampedRetract = match c.work.bound with
      | none => c.retractFromRest
      | some b =>
        if c.s = 0 ∨ c.p = b ∨ c.work.turning c.p = true then c.retractFromRest
        else { c with phase := .stopping, stopBound := b, work := c.work.toRetract } := by
  have hr : ¬ c.work.retracting = true := by rw [Work.not_retracting_of_not_outward _ ho]; exact Bool.false_ne_true
  have hout : ¬ c.work.outward = true := by rw [ho]; exact Bool.false_ne_true
  exact (if_neg hr).trans ((if_neg hp).trans (if_neg hout))

/-- R110, R123: the one inward stage that has turned round at a boundary is PECK_IN, at the boundary of PECK_OUT. -/
theorem Work.turning_iff (w : Work) (p : Int) (ho : w.outward = false) :
    w.turning p = true ↔ ∃ d, w = .drill d ∧ d.stage = .peckIn ∧ p = max (d.contact.getD 0 - d.prof.clearance) 0 := by
  cases w with
  | set d => simp [Work.turning]
  | drill d =>
    simp only [Work.turning, DrillWork.turning, DrillWork.peckOutBound, Work.drill.injEq, exists_eq_left']
    cases hst : d.stage with
    | peckIn => simp
    | retract => simp [Work.outward, hst] at ho
    | _ => simp

/-! ## The boundaries of the stages -/

/-- R115: the boundary of each drill stage. -/
theorem DrillWork.bound_spec (d : DrillWork) (f : DrillFields) (pc e pb : Int) (hf : f = d.prof) (hpc : pc = d.contact.getD 0)
    (he : e = d.layerEnd.getD 0) (hpb : pb = d.breakthrough.getD 0) :
    (d.stage = .approach → (Work.drill d).bound = some (d.surface - f.clearance))
      ∧ (d.stage = .seek → (Work.drill d).bound = some (d.surface + f.contactWindow))
      ∧ (∀ i, d.stage = .cut i →
        (Work.drill d).bound = some (if i < d.layers.length then pc + ((d.layers.take i).map Layer.thickness).sum
          else e - f.exitWindow))
      ∧ (d.stage = .exit → (Work.drill d).bound = some (e + f.lateLimit))
      ∧ (d.stage = .overtravel → (Work.drill d).bound = some (pb + f.overtravel))
      ∧ (d.stage = .peckOut → (Work.drill d).bound = some (max (pc - f.clearance) 0))
      ∧ (∀ pk, d.stage = .peckIn → d.peckDepth = some pk →
        (Work.drill d).bound = some (max (pk - f.resumeBackoff) (max (pc - f.clearance) 0)))
      ∧ (d.stage = .retract → (Work.drill d).bound = some 0) := by
  subst hf hpc he hpb
  have leg : ∀ st, d.stage = st → (Work.drill d).bound = (Work.drill { d with stage := st }).bound := by
    rintro st rfl; rfl
  refine ⟨leg _, leg _, fun i => leg _, leg _, leg _, leg _, fun pk hst hpk => ?_, leg _⟩
  rw [leg _ hst]
  simp only [Work.bound, DrillWork.leg, hpk, Option.getD_some]
  rfl

/-- R134: the boundary of each set stage. -/
theorem SetWork.bound_spec (w : SetWork) (f : SetFields) (rc : Int) (hf : f = w.prof) (hrc : rc = w.contact.getD 0) :
    ((w.stage = .feedWait ∨ w.stage = .hold) → (Work.set w).bound = none)
      ∧ (w.stage = .advance → (Work.set w).bound = some (w.expected - f.gripWindow - f.clearance))
      ∧ (w.stage = .seek → (Work.set w).bound = some (w.expected + f.gripWindow))
      ∧ (w.stage = .squeeze → (Work.set w).bound = some (max (rc + f.formedMax + w.gripComp) rc))
      ∧ (w.stage = .retract → (Work.set w).bound = some 0) := by
  subst hf hrc
  have leg : ∀ st, w.stage = st → (Work.set w).bound = (Work.set { w with stage := st }).bound := by
    rintro st rfl; rfl
  exact ⟨fun h => h.elim (leg _) (leg _), leg _, leg _, leg _, leg _⟩

/-- R111, R115, R123: the drill stages that move outward. -/
theorem DrillWork.outward_iff (d : DrillWork) :
    ((Work.drill d).outward = true ↔ d.stage = .retract ∨ d.stage = .peckOut)
      ∧ ((Work.drill d).retracting = true ↔ d.stage = .retract) := by
  simp [Work.outward, Work.retracting]

/-- R134: the set stage that moves outward. -/
theorem SetWork.outward_iff (w : SetWork) :
    ((Work.set w).outward = true ↔ w.stage = .retract) ∧ ((Work.set w).retracting = true ↔ w.stage = .retract) := by
  simp [Work.outward, Work.retracting]

/-- Settles O46: the two requests by their checks, and the ramped retract by the order of its tests. -/
theorem frozenAndHaltedHeadsGoOn : Obligations.FrozenAndHaltedHeadsGoOn := by
  refine ⟨fun h s w ha hw => ?_, fun h s w ha hw => ?_, fun d w => ⟨rfl, rfl⟩, fun c turned hturned => ?_,
    fun d f pc e pb hf hpc he hpb => ?_, fun w f rc hf hrc => ?_⟩
  · subst hw
    refine ⟨fun hok => ?_, fun why hwhy => State.onRequest_refused ha (resume_refused h s why hwhy)⟩
    simp only [resumeChecks, firstFailing_cons_none] at hok
    obtain ⟨hh, _⟩ := hok
    exact ⟨fun hst => State.onRequest_done ha (resume_halted h s.toStation hh hst),
      fun hst => State.onRequest_done ha (resume_frozen h s.toStation hh hst)⟩
  · subst hw
    exact State.onRequest_answered ha (cancel_eq h s)
  · refine ⟨c.rampedRetract_retracting, c.rampedRetract_stopping, c.rampedRetract_outward, fun ho hp =>
      ⟨fun hb => ?_, fun b hb => ?_⟩⟩
    · rw [c.rampedRetract_inward ho hp, hb]
      rfl
    · rw [← Work.turning_iff c.work c.p ho] at hturned
      rw [c.rampedRetract_inward ho hp, hb, hturned]
      exact ⟨fun h => if_pos h, fun hs hbound hturn => if_neg (by simp [hs, hbound, hturn])⟩
  · obtain ⟨hout, hretract⟩ := d.outward_iff
    exact ⟨hout, hretract, d.bound_spec f pc e pb hf hpc he hpb⟩
  · obtain ⟨hout, hretract⟩ := w.outward_iff
    exact ⟨hout, hretract, w.bound_spec f rc hf hrc⟩

end Sys2Proof.Machine
end

section
/-!
What a head does on its CARRIAGE returns: the queue evaluation (R69 to R72, R102), the arbiter's answer (R73, R79), and the tests of
a head by its state (R15, R75, R76, R89 to R91, R113).
-/
namespace Sys2Proof.Machine

/-! ## The arbiter -/

/-- R73: a holder of the group that stands too close. -/
theorem Station.tooClose_iff (s : Station) (h j : HeadNo) (x : Int) :
    s.tooClose h x j = true ↔ j ≠ h ∧ (s.head j).cfg.group = (s.head h).cfg.group
      ∧ (s.head j).claim.any (fun c => decide (((c.claimX - x).natAbs : Int) < s.keepOut.get (s.head h).cfg.group)) = true := by
  unfold Station.tooClose
  cases (s.head j).claim with
  | none => simp
  | some c =>
    exact Bool.and_eq_true_iff.trans
      ((and_congr (Bool.and_eq_true_iff.trans (and_congr decide_eq_true_iff decide_eq_true_iff)) Iff.rfl).trans and_assoc)

theorem any_allFour_iff (p : Fin 4 → Bool) : allFour.any p = true ↔ ∃ i, p i = true := by
  rw [List.any_eq_true]
  exact ⟨fun ⟨i, _, hi⟩ => ⟨i, hi⟩, fun ⟨i, hi⟩ => ⟨i, mem_allFour i, hi⟩⟩

/-- Settles O20: the answers by the conditions in their order, each with what it leaves. -/
theorem arbiterAnswersInOrder : Obligations.ArbiterAnswersInOrder := by
  intro h i v s x hx
  subst hx
  have hclose : (allFour.any (s.tooClose h (s.correctedPosition v).x) = true) ↔ ∃ j : HeadNo, _ :=
    (any_allFour_iff _).trans (exists_congr fun j => s.tooClose_iff h j _)
  have hbusy : v.claimant ≠ none ↔ v.claimant.isSome = true := by rw [Option.isSome_iff_ne_none]
  unfold Station.claimRequest Station.arbitrate
  by_cases hhalt : s.ring.halt = true
  · rw [if_pos hhalt, if_pos hhalt]
  rw [if_neg hhalt, if_neg hhalt]
  by_cases hclaimed : v.claimant.isSome = true
  · rw [if_pos (hbusy.mpr hclaimed), if_pos hclaimed]
    rfl
  rw [if_neg (mt hbusy.mp hclaimed), if_neg hclaimed]
  by_cases hnear : allFour.any (s.tooClose h (s.correctedPosition v).x) = true
  · rw [if_pos hnear, if_pos (hclose.mp hnear)]
    rfl
  · rw [if_neg hnear, if_neg (mt hclose.mpr hnear)]
    rfl

/-! ## The stale tests -/

/-- R70: the stale tests of a drilling head. -/
theorem staleTests_drill (v : Hole) (q : Option Profile) :
    staleTests .drill v q =
      if v.state ≠ .pending then .discard .state
      else match q with
        | none => .discard .profile
        | some q => match q.state, q.body with
          | .invalid _, _ => .discard .profile
          | .loading, _ => .wait
          | .valid, .set _ => .discard .profile
          | .valid, .drill f layers =>
            if v.depth < f.clearance
                ∨ 250000 < v.depth + f.contactWindow + (layers.map fun e => e.2.thickness).sum + f.lateLimit + f.overtravel
            then .discard .limit else .passed := by
  unfold staleTests
  refine ite_congr (by simp [HeadKind.worksFrom]) (fun _ => rfl) fun _ => ?_
  cases q with
  | none => rfl
  | some q =>
    obtain ⟨state, body, comparators, clamped⟩ := q
    cases state with
    | loading | invalid why => rfl
    | valid =>
      cases body with
      | set f => rfl
      | drill f layers => simp only [validTests, drillLimitBroken, decide_eq_true_eq]

/-- R70, R102: the stale tests of a setting head. -/
theorem staleTests_set (v : Hole) (q : Option Profile) :
    staleTests .set v q =
      if v.state ≠ .drilled ∧ v.state ≠ .suspect then .discard .state
      else match q with
        | none => .discard .profile
        | some q => match q.state, q.body with
          | .invalid _, _ => .discard .profile
          | .loading, _ => .wait
          | .valid, .drill _ _ => .discard .profile
          | .valid, .set f =>
            if v.state = .suspect ∧ f.acceptSuspect = false then .discard .state
            else if v.stroke - f.gripWindow - f.clearance < 0 ∨ 80000 < v.stroke + f.gripWindow + f.formedMax + 2000
            then .discard .limit else .passed := by
  unfold staleTests
  refine ite_congr (by simp [HeadKind.worksFrom]) (fun _ => rfl) fun _ => ?_
  cases q with
  | none => rfl
  | some q =>
    obtain ⟨state, body, comparators, clamped⟩ := q
    cases state with
    | loading | invalid why => rfl
    | valid =>
      cases body with
      | drill f layers => rfl
      | set f => simp only [validTests, setLimitBroken, decide_eq_true_eq]

/-! ## One evaluation -/

/-- R155, R158: a record that joins while the hold is absent. -/
theorem Station.join_released (s : Station) (r : Result) (hh : s.results.hold = false) :
    s.join r =
      { s with
        results := { s.results with
          hold := decide (s.results.upper ≤ s.results.records.length + 1), records := s.results.records ++ [r] }
        faults := if s.results.upper ≤ s.results.records.length + 1 then s.faults.raise .resultHold else s.faults } := by
  simp only [Station.join, Station.holdTest, hh, List.length_append, List.length_cons, List.length_nil, Nat.zero_add]
  by_cases hfull : s.results.upper ≤ s.results.records.length + 1
  · simp [hfull, Station.raise]
  · simp [hfull]

/-- R70, R65, R64: a stale discard, while the hold is absent. -/
theorem Station.discard_eq (h : HeadNo) (i : Nat) (why : Reason) (s : Station) (hh : s.results.hold = false) :
    s.discard h i why =
      { s.setHead h
          { s.head h with
            queue := (s.head h).queue.tail
            state := if (s.head h).state = .seeking ∧ (s.head h).queue.tail = [] then s.rest .idle else (s.head h).state } with
        results := { s.results with
          hold := decide (s.results.upper ≤ s.results.records.length + 1)
          records := s.results.records ++ [s.discardRecord h i why] }
        faults := (if s.results.upper ≤ s.results.records.length + 1 then s.faults.raise .resultHold
          else s.faults).raise .staleAssignment } := by
  unfold Station.discard
  dsimp only
  rw [Station.join_released (s.modHead h fun w => { w with queue := w.queue.tail }) _ hh, Station.idleIfEmpty_eq_modHead]
  simp only [Station.modHead, Station.raise, Station.setHead, Station.head, Four.get_set_same, Four.set_set, Head.idled_eq]
  rfl

theorem Station.discardRecord_present (s : Station) (h : HeadNo) (i : Nat) (why : Reason) (v : Hole) (hv : s.hole i = some v) :
    s.discardRecord h i why =
      { jigId := s.table.jigId, hole := i, head := h, operation := .none, outcome := .notDone, reason := why,
        attempt := v.attempts + 1, sequence := s.ring.passSeq, notes := 0, latch := none, group := .none } := by
  rw [Station.discardRecord, s.attemptNumber_present i v hv]

/-- R69: no evaluation under the release hold, or of an empty queue. -/
theorem Station.evaluate_none (s : Station) (h : HeadNo) (actual : Spot)
    (hs : s.results.hold = true ∨ (s.head h).queue = []) : s.evaluate h actual = s := by
  unfold Station.evaluate
  split
  · rfl
  · next hhold =>
    rw [hs.resolve_left hhold]

/-- R69: the evaluation is that of the queue head. -/
theorem Station.evaluate_head (s : Station) (h : HeadNo) (actual : Spot) (i : Nat) (rest : List Nat) (v : Hole)
    (hhold : s.results.hold = false) (hq : (s.head h).queue = i :: rest) (hv : s.hole i = some v) :
    s.evaluate h actual = s.evaluateHole h i v actual := by
  simp only [Station.evaluate, hhold, hq, hv, Bool.false_eq_true, if_false]

/-- R72, R56: the window test, of the tool centre. -/
theorem inWindow_iff (c : HeadConfig) (actual target : Spot) :
    inWindow c actual target = true ↔ ((actual.x + c.offsetX - target.x).natAbs : Int) ≤ c.window
      ∧ ((actual.t + c.offsetT - target.t).natAbs : Int) ≤ c.window := decide_eq_true_iff

/-- R71, R72: an entry that passes the stale tests: a wait, or a request for the hole. -/
theorem Station.evaluateHole_passed (h : HeadNo) (i : Nat) (v : Hole) (actual : Spot) (s : Station)
    (hlook : staleTests (s.head h).cfg.kind v (s.neededProfile (s.head h).cfg.kind v) = .passed) :
    s.evaluateHole h i v actual =
      if (s.head h).gate.state = .opened ∧ inWindow (s.head h).cfg actual (s.correctedPosition v) = true
      then s.claimRequest h i v else s := by
  unfold Station.evaluateHole
  rw [hlook]
  dsimp only
  split
  · next hgate => rw [if_neg fun hc => hgate hc.1]
  · next hgate => exact ite_congr (propext ⟨fun hin => ⟨Decidable.not_not.mp hgate, hin⟩, And.right⟩) (fun _ => rfl) fun _ => rfl

/-- Settles O22: the tests in their order, and what each of their ends makes of the queue head. -/
theorem staleTestsInOrder : Obligations.StaleTestsInOrder := by
  refine ⟨staleTests_drill, staleTests_set, fun h actual s w hw => ⟨fun hs => ?_, fun i rest v look inside hhold hq hv hlook hin =>
    ⟨fun why hwhy => ?_, fun hwait => ?_, fun hpass hno => ?_, fun hpass hgate hinside => ?_⟩⟩⟩
  · subst hw; exact s.evaluate_none h actual hs
  all_goals
    subst hw
    rw [s.evaluate_head h actual i rest v hhold hq hv]
    replace hlook : look = staleTests (s.head h).cfg.kind v (s.neededProfile (s.head h).cfg.kind v) := hlook
    rw [← inWindow_iff] at hin
  · have hdiscard : s.evaluateHole h i v actual = s.discard h i why := by
      rw [Station.evaluateHole, ← hlook, hwhy]
    rw [hdiscard, s.discard_eq h i why hhold, s.discardRecord_present h i why v hv, hq]
    rfl
  · rw [Station.evaluateHole, ← hlook, hwait]
  · rw [s.evaluateHole_passed h i v actual (hlook.symm.trans hpass), if_neg]
    exact fun ⟨hgate, hwin⟩ => hno.elim (fun hclosed => hclosed hgate) fun hout => hout (hin.mpr hwin)
  · rw [s.evaluateHole_passed h i v actual (hlook.symm.trans hpass), if_pos ⟨hgate, hin.mp hinside⟩]

/-! ## The gate on a return -/

/-- R89, R90: the deviation and the hold distance; the rest of the gate stands. -/
theorem Gate.returned_spec (g : Gate) (actual : Spot) :
    (g.sent = none → (g.returned actual).deviation = g.deviation)
      ∧ (∀ sp, g.sent = some sp → (g.returned actual).deviation = some { x := sp.x - actual.x, t := sp.t - actual.t })
      ∧ (∀ sp, g.state = .held → g.held = some sp →
          (g.returned actual).holdDistance = max ((sp.x - actual.x).natAbs : Int) ((sp.t - actual.t).natAbs : Int))
      ∧ (g.state ≠ .held → (g.returned actual).holdDistance = g.holdDistance)
      ∧ (g.returned actual).state = g.state ∧ (g.returned actual).passed = g.passed ∧ (g.returned actual).held = g.held
      ∧ (g.returned actual).sent = g.sent := by
  refine ⟨fun h => ?_, fun sp h => ?_, fun sp hst h => ?_, fun hst => ?_, rfl, rfl, rfl, rfl⟩
  · simp only [Gate.returned, h]
  · simp only [Gate.returned, h]
  · simp only [Gate.returned, hst, h, magnitude]
  · unfold Gate.returned
    dsimp only
    split
    · next hst' _ => exact absurd hst' hst
    · rfl

/-- R91: a shift is a distance above the limit on either axis. -/
theorem Gate.shifted_iff (g : Gate) (limit : Int) (actual p : Spot) (hp : g.held = some p) :
    g.shifted limit actual = true ↔ limit < max ((p.x - actual.x).natAbs : Int) ((p.t - actual.t).natAbs : Int) := by
  have hmax : ∀ a b : Int, limit < max a b ↔ limit < a ∨ limit < b := fun a b => by omega
  rw [hmax, Gate.shifted, hp]
  exact decide_eq_true_iff

/-- R113: the cycle of a head whose carriage has shifted. -/
theorem Head.shift_eq (w : Head) :
    w.shift =
      { w with
        state := .retracting
        engine := w.engine.map fun c =>
          { c with
            decision := some (.failed, .shift), phase := .run, p := c.sent.getD c.p, s := 0, stopped := true
            work := c.work.toRetract } } := rfl

/-! ## The tests of the claimed hole -/

/-- R75, R76: the window is lost: the claim is released, and the head goes back to its queue. -/
theorem Station.loseWindow_eq (h : HeadNo) (s : Station) (c : Claim) (v : Hole) (hc : (s.head h).claim = some c)
    (hv : s.hole c.hole = some v) :
    s.loseWindow h =
      (s.putHole c.hole { v with claimant := none }).setHead h
        { s.head h with claim := none, settle := 0, state := if s.ring.halt then .halted else .seeking } := by
  have hholes : s.releasedHoles h = Table.put s.table.holes c.hole { v with claimant := none } := by
    simp only [Station.releasedHoles, hc, hv]
  unfold Station.loseWindow
  rw [Station.releaseClaim_eq, hholes]
  simp only [Station.modHead, Station.setHead, Station.head, Four.get_set_same, Four.set_set,
    Station.putHole, Station.rest]

/-- R75: the settle test. -/
theorem settled_iff (band : Int) (d : Spot) :
    settled band (some d) = true ↔ (d.x.natAbs : Int) ≤ band ∧ (d.t.natAbs : Int) ≤ band := decide_eq_true_iff

/-- R75: below the settle count the counter rises. -/
theorem Station.settleRise_below (h : HeadNo) (s : Station) (hn : (s.head h).settle + 1 < (s.head h).cfg.settleCount) :
    s.settleRise h = s.setHead h { s.head h with settle := (s.head h).settle + 1 } := by
  unfold Station.settleRise
  dsimp only
  rw [Station.head_modHead_same, if_pos hn]
  rfl

/-- R75: at the settle count a head in EXPLICIT mode arms. -/
theorem Station.settleRise_explicit (h : HeadNo) (s : Station) (hn : (s.head h).cfg.settleCount ≤ (s.head h).settle + 1)
    (hm : (s.head h).cfg.startMode = .explicit) :
    s.settleRise h = s.setHead h { s.head h with settle := (s.head h).settle + 1, state := .armed } := by
  unfold Station.settleRise
  dsimp only
  rw [Station.head_modHead_same, if_neg (Nat.not_lt.mpr hn), hm]
  simp only [Station.modHead, Station.head_setHead_same, Station.setHead_setHead]

/-- R75: at the settle count a head in AUTO mode engages. -/
theorem Station.settleRise_auto (h : HeadNo) (s : Station) (hn : (s.head h).cfg.settleCount ≤ (s.head h).settle + 1)
    (hm : (s.head h).cfg.startMode = .auto) :
    s.settleRise h = (s.setHead h { s.head h with settle := (s.head h).settle + 1 }).engage h := by
  unfold Station.settleRise
  dsimp only
  rw [Station.head_modHead_same, if_neg (Nat.not_lt.mpr hn), hm]
  rfl

/-- R75: the tests of a SETTLING head in their order. -/
theorem Station.settleReturn_eq (h : HeadNo) (actual : Spot) (i : Nat) (v : Hole) (s : Station) (d : Spot)
    (hd : (s.head h).gate.deviation = some d) (inside quiet : Prop)
    (hin : inside ↔ inWindow (s.head h).cfg actual (s.correctedPosition v) = true)
    (hquiet : quiet ↔ settled (s.head h).cfg.settleBand (some d) = true) :
    (¬ inside → s.settleReturn h actual i v = s.loseWindow h)
      ∧ (inside → ¬ quiet → s.settleReturn h actual i v = s.setHead h { s.head h with settle := 0 })
      ∧ (inside → quiet → s.settleReturn h actual i v = s.settleRise h) := by
  rw [hin, hquiet, ← hd]
  unfold Station.settleReturn
  refine ⟨fun hout => if_pos (by simpa using hout), fun hinside hloud => ?_, fun hinside hstill => ?_⟩
  · exact (if_neg (by simp [hinside])).trans (if_pos (by simpa using hloud))
  · exact (if_neg (by simp [hinside])).trans (if_neg (by simp [hstill]))

/-! ## The return -/

/-- R24: a drive status of 0 or 1 is no FAULT. -/
theorem DriveStatus.ofCode_quiet (b : Byte) (st : DriveStatus) (h : (b = 0 ∧ st = .ready) ∨ (b = 1 ∧ st = .notReady)) :
    DriveStatus.ofCode b = st ∧ st ≠ .fault := by
  obtain ⟨rfl, rfl⟩ | ⟨rfl, rfl⟩ := h
  · exact ⟨rfl, by decide⟩
  · exact ⟨rfl, by decide⟩

/-- R15: a CARRIAGE return whose drive reports no FAULT: the status and the gate, then the Head Controller. -/
theorem Station.carriageReturn_quiet (h : HeadNo) (payload : List Byte) (s : Station) (st : DriveStatus)
    (hst : carriageStatus payload = st) (hquiet : st ≠ .fault) :
    s.carriageReturn h payload =
      (s.setHead h { s.head h with carriageStatus := st, gate := (s.head h).gate.returned (carriageActual payload) }).controllerReturn
        h (carriageActual payload) := by
  unfold Station.carriageReturn
  dsimp only
  rw [hst, Station.driveReports, if_neg fun hf => hquiet hf.1]
  simp only [Station.modHead, Station.head_setHead_same, Station.setHead_setHead]

/-- R15: a SEEKING head evaluates its queue. -/
theorem Station.controllerReturn_seeking (h : HeadNo) (actual : Spot) (s : Station) (hst : (s.head h).state = .seeking) :
    s.controllerReturn h actual = s.evaluate h actual := by
  simp only [Station.controllerReturn, hst]

/-- R15: a SETTLING head makes its tests of the claimed hole. -/
theorem Station.controllerReturn_settling (h : HeadNo) (actual : Spot) (s : Station) (hst : (s.head h).state = .settling)
    (c : Claim) (v : Hole) (hc : (s.head h).claim = some c) (hv : s.hole c.hole = some v) :
    s.controllerReturn h actual = s.settleReturn h actual c.hole v := by
  simp only [Station.controllerReturn, hst, Station.onClaimed, hc, hv]

/-- R76: an ARMED head tests its window. -/
theorem Station.controllerReturn_armed (h : HeadNo) (actual : Spot) (s : Station) (hst : (s.head h).state = .armed)
    (c : Claim) (v : Hole) (hc : (s.head h).claim = some c) (hv : s.hole c.hole = some v) :
    s.controllerReturn h actual =
      if inWindow (s.head h).cfg actual (s.correctedPosition v) = true then s else s.loseWindow h := by
  simp only [Station.controllerReturn, hst, Station.onClaimed, hc, hv, Station.armedReturn]
  cases inWindow (s.head h).cfg actual (s.correctedPosition v) <;> rfl

/-- R91: an ENGAGED or FROZEN head makes the shift test. -/
theorem Station.controllerReturn_shift (h : HeadNo) (actual : Spot) (s : Station)
    (hst : (s.head h).state = .engaged ∨ (s.head h).state = .frozen) :
    s.controllerReturn h actual =
      if (s.head h).gate.shifted (s.head h).cfg.shiftLimit actual = true then s.setHead h (s.head h).shift else s := by
  obtain hst | hst := hst <;> simp only [Station.controllerReturn, hst, Station.modHead]

/-- R15: any other head does nothing more. -/
theorem Station.controllerReturn_rest (h : HeadNo) (actual : Spot) (s : Station)
    (hst : (s.head h).state = .offline ∨ (s.head h).state = .idle ∨ (s.head h).state = .retracting
      ∨ (s.head h).state = .halted ∨ (s.head h).state = .fault) : s.controllerReturn h actual = s := by
  obtain hst | hst | hst | hst | hst := hst <;> simp only [Station.controllerReturn, hst]

/-- Settles O21: the gate, then the head by its state. -/
theorem settlingHeadTestsItsReturn : Obligations.SettlingHeadTestsItsReturn := by
  refine ⟨fun h actual i x v s w d inside quiet hw hc hv hd hin hquiet => ?_, Gate.returned_spec,
    fun h payload s u w actual st hw hactual hst hu => ?_⟩
  · subst hw
    obtain ⟨hlost, hloud, hstill⟩ := s.settleReturn_eq h actual i v d hd inside quiet
      (hin.trans (inWindow_iff _ _ _).symm) (hquiet.trans (settled_iff _ _).symm)
    refine ⟨fun hout => ?_, hloud, fun hi hq hn => ?_, fun hi hq hn hm => ?_, fun hi hq hn hm => ?_⟩
    · rw [hlost hout, s.loseWindow_eq h _ v hc hv]
    · rw [hstill hi hq, s.settleRise_below h hn]
    · rw [hstill hi hq, s.settleRise_explicit h hn hm]
    · rw [hstill hi hq, s.settleRise_auto h hn hm]
  · obtain ⟨hcode, hnofault⟩ := DriveStatus.ofCode_quiet _ st hst
    have hreturn : s.carriageReturn h payload = u.controllerReturn h actual := by
      rw [hu, hw, hactual]
      exact s.carriageReturn_quiet h payload st hcode hnofault
    have hown : u.head h = { w with carriageStatus := st, gate := w.gate.returned actual } := by
      rw [hu, Station.head_setHead_same]
    have hhole : ∀ i, u.hole i = s.hole i := fun i => by rw [hu]; rfl
    have hstate : (u.head h).state = w.state := by rw [hown]
    have hclaim : (u.head h).claim = w.claim := by rw [hown]
    have hcfg : (u.head h).cfg = w.cfg := by rw [hown]
    have hengine : (u.head h).engine = w.engine := by rw [hown]
    have hring : u.ring = s.ring := by rw [hu]; rfl
    have hposition : ∀ v, u.correctedPosition v = s.correctedPosition v := fun v => by rw [hu]; rfl
    rw [hreturn]
    refine ⟨fun hs => ?_, fun i x v hs hc hv => ?_, fun i x v inside hs hc hv hin => ?_, fun p hs hp => ?_, fun hs => ?_⟩
    · exact u.controllerReturn_seeking h actual (hstate.trans hs)
    · exact u.controllerReturn_settling h actual (hstate.trans hs) _ v (hclaim.trans hc) ((hhole i).trans hv)
    · rw [u.controllerReturn_armed h actual (hstate.trans hs) _ v (hclaim.trans hc) ((hhole i).trans hv), hcfg, hposition]
      rw [← inWindow_iff] at hin
      refine ⟨fun hinside => if_pos (hin.mp hinside), fun hout => (if_neg (mt hin.mpr hout)).trans ?_⟩
      rw [u.loseWindow_eq h _ v (hclaim.trans hc) ((hhole i).trans hv), hring]
    · rw [u.controllerReturn_shift h actual (by rwa [hstate]), hcfg, (u.head h).shift_eq, hengine]
      have hshift := (u.head h).gate.shifted_iff w.cfg.shiftLimit actual p (by rw [hown]; exact hp)
      exact ⟨fun hfar => if_pos (hshift.mpr hfar), fun hnear => if_neg (mt hshift.mp (Int.not_lt.mpr hnear))⟩
    · exact u.controllerReturn_rest h actual (by rwa [hstate])

end Sys2Proof.Machine
end

section
/-!
A STOP change (R64, R151, R152): one that brings the halt moves every head by its state, and clears the claimants of the holes that
SETTLING and ARMED heads let go; any other only records the level.
-/
namespace Sys2Proof.Machine

/-- R151: a STOP change that brings no halt only records the level. -/
theorem Station.stopLevel_quiet (b : Bool) (s : Station) (h : s.ring.halt = true ∨ b = false) :
    s.stopLevel b = { s with ring := { s.ring with stopPin := b } } := by
  unfold Station.stopLevel
  split
  · refine if_neg fun ⟨hbefore, hafter⟩ => ?_
    obtain h | rfl := h
    · rw [h] at hbefore; cases hbefore
    · simp only [Ring.halt, Bool.or_eq_false_iff, Bool.or_false] at hbefore hafter
      rw [hbefore.1] at hafter; cases hafter
  · rfl

/-! ## The holes that the halt lets go -/

/-- R64: a head that lets its claim on hole `i` go when the halt becomes present. -/
def Head.letsGo (i : Nat) (w : Head) : Bool :=
  (w.state == .settling || w.state == .armed) && w.claim.any fun c => c.hole == i

/-- R35: a hole record whose claimant is cleared. -/
def Hole.released (v : Hole) : Hole := { v with claimant := none }

/-- R64, R35: the halt reaches one head: the record of the hole it lets go is cleared, and no other. -/
theorem Station.hole_haltHead (s : Station) (h : HeadNo) (i : Nat) :
    (s.haltHead h).hole i = if (s.head h).letsGo i then (s.hole i).map Hole.released else s.hole i := by
  have hclaim : ((s.head h).claim.any fun c => c.hole == i) = true ↔ (s.head h).claim.map (fun c => c.hole) = some i := by
    cases (s.head h).claim <;> simp
  unfold Station.haltHead
  split
  case h_3 hst | h_4 hst =>
    rw [Station.hole_modHead, Station.hole_releaseClaim]
    exact ite_congr (propext (by simp [Head.letsGo, hst, hclaim])) (fun _ => rfl) fun _ => rfl
  all_goals
    next hst => exact (if_neg (by simp [Head.letsGo, hst])).symm

/-- A record that is released once stays so. -/
theorem released_twice (a b : Bool) (o : Option Hole) :
    (if b = true then (if a = true then o.map Hole.released else o).map Hole.released
      else if a = true then o.map Hole.released else o) = if (a || b) = true then o.map Hole.released else o := by
  cases a
  · rfl
  · cases b
    · rfl
    · exact o.map_map _ _

/-- R64, R35: the halt reaches every head. -/
theorem Station.hole_haltArrives (s : Station) (i : Nat) :
    s.haltArrives.hole i =
      if (allFour.any fun h => (s.head h).letsGo i) = true then (s.hole i).map Hole.released else s.hole i := by
  have other : ∀ (t : Station) (h j : HeadNo), h ≠ j → (t.haltHead h).head j = t.head j := fun t h j hj => by
    rw [Station.head_haltHead, if_neg hj]
  unfold Station.haltArrives Station.eachHead
  rw [Station.hole_haltHead, other _ 2 3 (by decide), other _ 1 3 (by decide), other _ 0 3 (by decide),
    Station.hole_haltHead, other _ 1 2 (by decide), other _ 0 2 (by decide),
    Station.hole_haltHead, other _ 0 1 (by decide), Station.hole_haltHead]
  rw [released_twice, released_twice, released_twice]
  exact ite_congr (by simp [allFour]) (fun _ => rfl) fun _ => rfl

/-- R64: of the hole table the halt changes the records alone. -/
theorem Station.haltArrives_table (s : Station) : s.haltArrives.table = { s.table with holes := s.haltArrives.table.holes } := by
  refine Kept.eachHead (P := fun t => t.table = { s.table with holes := t.table.holes }) Station.haltHead
    (fun h t ht => ?_) (s.raise .halt) rfl
  have hsame : (t.haltHead h).table = { t.table with holes := (t.haltHead h).table.holes } := by
    unfold Station.haltHead
    split
    case h_3 | h_4 => exact Station.releaseClaim_table h t
    all_goals rfl
  rw [hsame, ht]

theorem Station.haltArrives_faults (s : Station) : s.haltArrives.faults = s.faults.raise .halt := by
  simp [Station.haltArrives, Station.eachHead]

/-- Settles O6: a change that brings no halt, and one that does, told block by block. -/
theorem stopPinChangeBringsTheHalt : Obligations.StopPinChangeBringsTheHalt := by
  refine ⟨fun b s ha => ⟨fun h => ?_, fun hbefore hb => ?_⟩, fun r => by simp [Ring.halt]⟩
  · exact congrArg (fun u => Host.Outcome.next { s with toStation := u }) (s.toStation.stopLevel_quiet b h)
  · subst hb
    refine ⟨{ s with toStation := { s.haltArrives with ring := { s.ring with stopPin := true } } }, ?_, rfl,
      s.haltArrives_faults, s.head_haltArrives, s.hole_haltArrives, s.haltArrives_table, by simp, by simp, by simp, by simp,
      by simp, rfl⟩
    exact congrArg (fun u => Host.Outcome.next { s with toStation := u }) (s.toStation.stopLevel_brings ha hbefore)

end Sys2Proof.Machine
end

section
/-!
The Comparator Bank on a cycle return (R99, R144 to R147, R150): how a comparator counts, and what those that fired do together.
-/
namespace Sys2Proof.Machine

/-! ## One comparator -/

/-- R144: a return on which the comparator is not met starts its count again. -/
theorem LiveComparator.not_met (fb : Feedback) (sent hold : Int) (bit : Nat) (l : LiveComparator)
    (h : l.true? fb sent hold bit = false) :
    l.fires fb sent hold bit = false ∧ l.next fb sent hold bit = { l with count := 0, fired := false } := by
  simp [LiveComparator.fires, LiveComparator.next, h]

/-- R144: a comparator that is met fires when its count is reached and it has not fired before. -/
theorem LiveComparator.fires_iff_of_met (fb : Feedback) (sent hold : Int) (bit : Nat) (l : LiveComparator)
    (h : l.true? fb sent hold bit = true) :
    l.fires fb sent hold bit = true ↔ l.record.count ≤ l.count + 1 ∧ l.fired = false := by
  simp [LiveComparator.fires, h]

/-- R144: a return on which the comparator is met counts, up to the consecutive count. -/
theorem LiveComparator.next_of_met (fb : Feedback) (sent hold : Int) (bit : Nat) (l : LiveComparator)
    (h : l.true? fb sent hold bit = true) :
    l.next fb sent hold bit =
      { l with count := min (l.count + 1) l.record.count, fired := l.fired || l.fires fb sent hold bit } := by
  rw [LiveComparator.next, if_pos h]

/-- R144: the mark stands once the comparator has fired. -/
theorem LiveComparator.fired_next_of_met (fb : Feedback) (sent hold : Int) (bit : Nat) (l : LiveComparator)
    (h : l.true? fb sent hold bit = true) :
    (l.next fb sent hold bit).fired = true ↔ l.fired = true ∨ l.record.count ≤ l.count + 1 := by
  rw [l.next_of_met fb sent hold bit h, Bool.or_eq_true, l.fires_iff_of_met fb sent hold bit h]
  cases l.fired <;> simp

/-- R99: the four conditions. -/
theorem Comparator.holds_iff (k : Comparator) (v : Int) :
    (k.condition = .above → (k.holds v = true ↔ k.low < v)) ∧ (k.condition = .below → (k.holds v = true ↔ v < k.low))
      ∧ (k.condition = .inside → (k.holds v = true ↔ k.low ≤ v ∧ v ≤ k.high))
      ∧ (k.condition = .outside → (k.holds v = true ↔ v < k.low ∨ k.high < v)) := by
  refine ⟨fun h => ?_, fun h => ?_, fun h => ?_, fun h => ?_⟩
  all_goals rw [Comparator.holds, h]; exact decide_eq_true_iff

/-! ## NOTE and LATCH -/

theorem Run.note_zero (r : Run) : r.note 0 = r := rfl

theorem Run.note_pos (n : Nat) (r : Run) (h : n ≠ 0) :
    r.note n =
      { r with bank := { r.bank with notes := min (r.bank.notes + n) 65535 }, raised := .comparatorNote :: r.raised } :=
  if_neg h

/-- R145: a LATCH fills an empty latch. -/
theorem Run.latch_empty (fb : Feedback) (sent hold : Int) (l : LiveComparator) (rest : List LiveComparator) (r : Run)
    (h : r.bank.latch = none) :
    r.latch fb sent hold (l :: rest) =
      { r with
        bank :=
          { r.bank with
            latch := some { comparator := l.slot, setpoint := sent, source := sourceValue fb sent hold l.record.source } } } := by
  simp only [Run.latch, h]

/-- R145: a latch that is filled stands. -/
theorem Run.latch_filled (fb : Feedback) (sent hold : Int) (latches : List LiveComparator) (r : Run) (h : r.bank.latch ≠ none) :
    r.latch fb sent hold latches = r := by
  obtain ⟨v, hv⟩ := Option.ne_none_iff_exists'.mp h
  simp only [Run.latch, hv]

theorem Run.latch_nil (fb : Feedback) (sent hold : Int) (r : Run) : r.latch fb sent hold [] = r := by
  unfold Run.latch
  split
  next h => cases h
  next => rfl

/-! ## RETRACT, FREEZE and EASE -/

/-- R150: RETRACT ends the cycle FAILED in an immediate stop. -/
theorem Run.actRetract_undecided (k : Nat) (r : Run) (h : r.cyc.decision = none) :
    r.actRetract k =
      { r with
        state := .retracting, stepDone := true
        cyc := { r.cyc with
                 decision := some (.failed, .comparator k), phase := .run
                 p := r.cyc.sent.getD r.cyc.p, s := 0, work := r.cyc.work.toRetract } } := by
  rw [Run.actRetract, h]
  rfl

/-- R150: with an outcome decided RETRACT acts as NOTE. -/
theorem Run.actRetract_decided (k : Nat) (r : Run) (h : r.cyc.decision ≠ none) : r.actRetract k = r.note 1 := by
  obtain ⟨o, ho⟩ := Option.ne_none_iff_exists'.mp h
  rw [Run.actRetract, ho]

/-- R147: the stages in which FREEZE has no effect. -/
theorem Work.pecking_iff (w : Work) :
    w.pecking = true ↔ ∃ d, w = .drill d ∧ (d.stage = .peckOut ∨ d.stage = .peckIn) := by
  cases w <;> simp [Work.pecking]

theorem Work.not_pecking_iff (w : Work) :
    w.pecking = false ↔ ∀ d, w = .drill d → d.stage ≠ .peckOut ∧ d.stage ≠ .peckIn := by
  cases w <;> simp [Work.pecking]

/-- R147: FREEZE of an ENGAGED head that makes no peck. -/
theorem Run.actFreeze_freezes (r : Run)
    (h : r.cyc.decision = none ∧ r.state = .engaged
      ∧ ∀ w, r.cyc.work = .drill w → w.stage ≠ .peckOut ∧ w.stage ≠ .peckIn) :
    r.actFreeze =
      { r with
        state := .frozen, raised := .headFrozen :: r.raised
        cyc := { r.cyc with work := r.cyc.work.zeroCounts }
        bank := { r.bank with live := r.bank.live.map fun l => { l with count := 0, fired := false } } } := by
  obtain ⟨hd, hst, hw⟩ := h
  exact if_pos ⟨hd, hst, r.cyc.work.not_pecking_iff.mpr hw⟩

/-- R147, R150: everywhere else FREEZE does nothing. -/
theorem Run.actFreeze_quiet (r : Run)
    (h : r.cyc.decision ≠ none ∨ r.state ≠ .engaged
      ∨ ∃ w, r.cyc.work = .drill w ∧ (w.stage = .peckOut ∨ w.stage = .peckIn)) :
    r.actFreeze = r := by
  refine if_neg fun ⟨hd, hst, hw⟩ => ?_
  obtain h | h | h := h
  · exact h hd
  · exact h hst
  · rw [r.cyc.work.pecking_iff.mpr h] at hw
    cases hw

/-- R146: the CUT stage that EASE eases. -/
theorem Work.cutStage_eq_some_iff (w : Work) (i : Nat) : w.cutStage = some i ↔ ∃ d, w = .drill d ∧ d.stage = .cut i := by
  cases w with
  | drill d =>
    simp only [Work.cutStage, Work.drill.injEq, exists_eq_left']
    cases d.stage <;> simp
  | set d => simp [Work.cutStage]

/-- R146: EASE in a CUT stage. -/
theorem Run.actEase_cut (r : Run) (w : DrillWork) (i : Nat) (hd : r.cyc.decision = none) (hw : r.cyc.work = .drill w)
    (hst : w.stage = .cut i) : r.actEase = { r with bank := { r.bank with ease := some i } } := by
  rw [Run.actEase, hd, (r.cyc.work.cutStage_eq_some_iff i).mpr ⟨w, hw, hst⟩]

/-- R146, R150: everywhere else EASE acts as NOTE. -/
theorem Run.actEase_note (r : Run)
    (h : r.cyc.decision ≠ none ∨ ∀ w i, r.cyc.work = .drill w → w.stage ≠ .cut i) : r.actEase = r.note 1 := by
  unfold Run.actEase
  split
  next i hd hi =>
    obtain ⟨w, hw, hst⟩ := (r.cyc.work.cutStage_eq_some_iff i).mp hi
    obtain h | h := h
    · exact absurd hd h
    · exact absurd hst (h w i hw)
  next => rfl

/-- R145: one of RETRACT, FREEZE and EASE acts, in that precedence. -/
theorem Run.actOne_retract (fired rest : List LiveComparator) (l : LiveComparator) (r : Run)
    (h : (fired.filter fun l => l.record.action == .retract) = l :: rest) : r.actOne fired = r.actRetract l.slot := by
  rw [Run.actOne, withAction, h]

theorem Run.actOne_freeze (fired : List LiveComparator) (r : Run)
    (hr : (fired.filter fun l => l.record.action == .retract) = [])
    (hf : (fired.filter fun l => l.record.action == .freeze) ≠ []) : r.actOne fired = r.actFreeze := by
  obtain ⟨l, rest, hl⟩ := List.exists_cons_of_ne_nil hf
  simp only [Run.actOne, withAction, hr, hl]

theorem Run.actOne_ease (fired : List LiveComparator) (r : Run)
    (hr : (fired.filter fun l => l.record.action == .retract) = [])
    (hf : (fired.filter fun l => l.record.action == .freeze) = [])
    (he : (fired.filter fun l => l.record.action == .ease) ≠ []) : r.actOne fired = r.actEase := by
  obtain ⟨l, rest, hl⟩ := List.exists_cons_of_ne_nil he
  simp only [Run.actOne, withAction, hr, hf, hl]

theorem Run.actOne_none (fired : List LiveComparator) (r : Run)
    (hr : (fired.filter fun l => l.record.action == .retract) = [])
    (hf : (fired.filter fun l => l.record.action == .freeze) = [])
    (he : (fired.filter fun l => l.record.action == .ease) = []) : r.actOne fired = r := by
  simp only [Run.actOne, withAction, hr, hf, he]

/-! ## The bank -/

/-- R144, R147: no evaluation is made of a head in another state. -/
theorem Run.comparators_unevaluated (fb : Feedback) (sent hold : Int) (st : HeadState) (bit : Nat) (r : Run)
    (h : st ≠ .engaged ∧ st ≠ .retracting) : r.comparators fb sent hold st bit = r :=
  if_neg (not_or.mpr h)

/-- R144, R145: the evaluation, and then all that fired. -/
theorem Run.comparators_evaluated (fb : Feedback) (sent hold : Int) (st : HeadState) (bit : Nat) (r : Run)
    (h : st = .engaged ∨ st = .retracting) :
    r.comparators fb sent hold st bit =
      Run.act fb sent hold (r.bank.live.filter fun l => l.fires fb sent hold bit)
        { r with bank := { r.bank with live := r.bank.live.map fun l => l.next fb sent hold bit } } :=
  if_pos h

/-- Settles O27: a comparator by whether it is met, the actions by what has fired. -/
theorem comparatorFiresOnItsCount : Obligations.ComparatorFiresOnItsCount := by
  refine ⟨fun fb sent hold bit l met hmet => ?_, fun fb sent hold => ⟨rfl, rfl, rfl, rfl, rfl, rfl⟩, Comparator.holds_iff,
    fun fb sent hold st bit r fired hfired => ?_, fun n r => ⟨?_, r.note_pos n⟩,
    fun fb sent hold r l rest => ⟨r.latch_empty fb sent hold l rest, r.latch_filled fb sent hold _, r.latch_nil fb sent hold⟩,
    fun fired retracts freezes eases r hretracts hfreezes heases => ?_, fun d w => ⟨rfl, rfl⟩, fun i => rfl, rfl, rfl⟩
  · subst hmet
    exact ⟨l.not_met fb sent hold bit, fun h => ⟨l.fires_iff_of_met fb sent hold bit h,
      congrArg LiveComparator.count (l.next_of_met fb sent hold bit h), l.fired_next_of_met fb sent hold bit h⟩⟩
  · subst hfired
    exact ⟨r.comparators_unevaluated fb sent hold st bit, r.comparators_evaluated fb sent hold st bit⟩
  · rintro rfl
    exact r.note_zero
  · subst hretracts hfreezes heases
    refine ⟨fun l rest h => ?_, fun hr hf => ?_, fun hr hf he => ?_, r.actOne_none fired⟩
    · rw [r.actOne_retract fired rest l h]
      exact ⟨r.actRetract_undecided l.slot, r.actRetract_decided l.slot⟩
    · rw [r.actOne_freeze fired hr hf]
      exact ⟨r.actFreeze_freezes, r.actFreeze_quiet⟩
    · rw [r.actOne_ease fired hr hf he]
      exact ⟨r.actEase_cut, r.actEase_note⟩

end Sys2Proof.Machine
end
section
/-!
The requests to the Profile Store: PROFILE BEGIN (R93, R94), what every request to a LOADING profile has in common, and PROFILE
FIELDS (R97, R101).
-/
namespace Sys2Proof.Machine

/-! ## PROFILE BEGIN -/

/-- A property of the claims, head by head. -/
theorem Station.someClaim_eq (s : Station) (p : Claim → Bool) :
    s.someClaim p = allFour.any fun h => (s.head h).claim.any p := by
  have hnone : s.someClaim p = !s.heads.all fun w => !w.claim.any p := by
    unfold Station.someClaim
    congr 2
    funext w
    cases w.claim <;> rfl
  rw [hnone]
  simp [Four.all, allFour, Station.head, Four.get, Bool.or_assoc]

/-- R94: the test of PROFILE BEGIN. -/
theorem profileInUse_eq (p : Byte) (s : State) : s.toStation.profileInUse p.toNat = profileHeld p s := by
  rw [Station.profileInUse, Station.someClaim_eq, profileHeld]
  congr 1; funext h; congr 1; funext c
  cases s.hole c.hole with
  | none => rfl
  | some v => simp [Bool.decide_or, Bool.beq_eq_decide_eq]

/-- R24: a byte is the code of a kind, or above the codes. -/
theorem headKind_cases (b : Byte) : 1 < b.toNat ∨ ∃ k : HeadKind, b = k.code := by
  by_cases h : 1 < b.toNat
  · exact .inl h
  · have hb : b.toNat = 0 ∨ b.toNat = 1 := by omega
    right
    obtain hb | hb := hb
    · exact ⟨.drill, BitVec.eq_of_toNat_eq hb⟩
    · exact ⟨.set, BitVec.eq_of_toNat_eq hb⟩

theorem HeadKind.code_le (k : HeadKind) : k.code.toNat ≤ 1 := by cases k <;> decide

/-- R93: PROFILE BEGIN with a kind of the list. -/
theorem profileBegin_kind (p : Byte) (k : HeadKind) (s : State) :
    profileBegin p k.code s.toStation = answered (firstFailing (profileBeginChecks p k.code s))
      (s.putProfile p.toNat { state := .loading, body := .initial k, comparators := [], clamped := false }) s.toStation := by
  have hk : ¬ 1 < k.code.toNat := Nat.not_lt.mpr k.code_le
  simp only [profileBegin, profileBeginChecks, answered_cons, answered_nil, decide_eq_true_eq, HeadKind.ofCode_code, hk,
    if_false, profileInUse_eq]

/-- R93: PROFILE BEGIN with any other kind is refused. -/
theorem profileBegin_noKind (p kind : Byte) (s : State) (u : Station) (hk : 1 < kind.toNat) :
    profileBegin p kind s.toStation = answered (firstFailing (profileBeginChecks p kind s)) u s.toStation := by
  simp only [profileBegin, profileBeginChecks, answered_cons, decide_eq_true_eq, HeadKind.ofCode_above kind hk, hk, if_true]

/-- Settles O37: by the kind that the byte names. -/
theorem profileBeginOpensWithDefaults : Obligations.ProfileBeginOpensWithDefaults := by
  intro p kind s ha
  obtain hk | ⟨k, rfl⟩ := headKind_cases kind
  · refine ⟨fun hok => ?_, (State.onRequest_answered ha (profileBegin_noKind p kind s s.toStation hk)).2⟩
    simp [profileBeginChecks, firstFailing_cons_none, Nat.not_le.mpr hk] at hok
  · obtain ⟨hdone, hrefused⟩ := State.onRequest_answered ha (profileBegin_kind p k s)
    refine ⟨fun hok => ?_, hrefused⟩
    cases k
    · exact hdone hok
    · exact hdone hok

/-! ## Requests to a LOADING profile -/

/-- R97 to R100: what a request does to a profile that is LOADING, and STATE where it is not. -/
def Station.whileLoading (p : Nat) (f : Profile → Station × Reply) (s : Station) : Station × Reply :=
  match s.profile p with
  | none => (s, .refused .state)
  | some q => if q.state ≠ .loading then (s, .refused .state) else f q

/-- The station with the profile numbered `p`, where there is one, changed. -/
def Station.modProfile (p : Nat) (g : Profile → Profile) (s : Station) : Station :=
  match s.profile p with
  | none => s
  | some q => s.putProfile p (g q)

theorem Station.modProfile_some (p : Nat) (g : Profile → Profile) (s : Station) (q : Profile) (hq : s.profile p = some q) :
    s.modProfile p g = { s with profiles := Table.put s.profiles p (g q) } := by
  rw [Station.modProfile, hq]
  rfl

theorem profileLoading_some {p : Byte} {s : State} {q : Profile} (hq : s.profile p.toNat = some q) :
    profileLoading p s = true ↔ q.state = .loading := by
  rw [profileLoading, hq, Option.any_some, beq_iff_eq]

theorem profileSets_some {p : Byte} {s : State} {q : Profile} (hq : s.profile p.toNat = some q) :
    profileSets p s = (q.body.kind == .set) := by
  rw [profileSets, hq, Option.any_some]

theorem Station.whileLoading_loading {p : Byte} {s : State} {q : Profile} (f : Profile → Station × Reply)
    (hq : s.profile p.toNat = some q) (hl : profileLoading p s = true) : s.toStation.whileLoading p.toNat f = f q := by
  simp only [Station.whileLoading, hq]
  exact if_neg (not_not_intro ((profileLoading_some hq).mp hl))

theorem Station.whileLoading_not_loading {p : Byte} {s : State} (f : Profile → Station × Reply)
    (hl : profileLoading p s = false) : s.toStation.whileLoading p.toNat f = (s.toStation, .refused .state) := by
  cases hq : s.profile p.toNat with
  | none => simp only [Station.whileLoading, hq]
  | some q =>
    simp only [Station.whileLoading, hq]
    refine if_pos fun h => ?_
    rw [(profileLoading_some hq).mpr h] at hl
    cases hl

/-- R97 to R99: LOADING is the check that such a request makes before those of its own. -/
theorem Station.whileLoading_answered {p : Byte} {s : State} {f : Profile → Station × Reply} {u : Station}
    {rest : List (Bool × Denial)}
    (hf : ∀ q, s.profile p.toNat = some q → f q = answered (firstFailing rest) u s.toStation) :
    s.toStation.whileLoading p.toNat f = answered (firstFailing ((!profileLoading p s, .state) :: rest)) u s.toStation := by
  rw [answered_cons]
  cases hl : profileLoading p s with
  | false => exact Station.whileLoading_not_loading f hl
  | true =>
    obtain ⟨q, hq, _⟩ := (Option.any_eq_true _ _).mp hl
    exact (Station.whileLoading_loading f hq hl).trans (hf q hq)

/-! ## PROFILE FIELDS -/

theorem profileFields_whileLoading (p group : Byte) (values : List Byte) (s : Station) :
    profileFields p group values s =
      if 31 < p.toNat then (s, .refused .badIndex)
      else s.whileLoading p.toNat fun q =>
        if fieldsBad q.body group.toNat values then (s, .refused .badValue)
        else (s.putProfile p.toNat { q with body := q.body.write group.toNat values }, .done []) := rfl

/-- R97: the group, and the ACCEPT_SUSPECT of a set profile, which is a yes or a no. -/
theorem fieldsBad_eq (b : Body) (group : Byte) (values : List Byte) :
    fieldsBad b group.toNat values =
      (decide (2 < group.toNat) || (b.kind == .set && decide (group = 2 ∧ 1 < (byteAt values 12).toNat))) := by
  have hgroup : group.toNat = 2 ↔ group = 2 := BitVec.toNat_inj (x := group) (y := 2)
  cases b with
  | drill f layers => rfl
  | set f => simp [fieldsBad, Body.kind, hgroup]

/-- R97: the checks of PROFILE FIELDS in their order, and what it does when none fails. -/
theorem profileFields_eq (p group : Byte) (values : List Byte) (s : State) :
    profileFields p group values s.toStation = answered (firstFailing (profileFieldsChecks p group values s))
      (s.modProfile p.toNat fun q => { q with body := q.body.write group.toNat values }) s.toStation := by
  rw [profileFields_whileLoading, profileFieldsChecks, answered_cons]
  refine ite_congr (by simp) (fun _ => rfl) fun _ => Station.whileLoading_answered fun q hq => ?_
  rw [answered_cons, answered_nil, fieldsBad_eq, profileSets_some hq, Station.modProfile_some _ _ _ q hq]
  rfl

/-- R24: a yes or no that is sent as 0 or 1 reads back as sent. -/
theorem flagByte_beq_one (b : Byte) (h : b.toNat ≤ 1) : flagByte (b == 1) = b := by
  have hb : b.toNat = 0 ∨ b.toNat = 1 := by omega
  obtain hb | hb := hb
  · rw [show b = 0 from BitVec.eq_of_toNat_eq hb]; rfl
  · rw [show b = 1 from BitVec.eq_of_toNat_eq hb]; rfl

/-- R95, R101: a drill group reads back as sent. -/
theorem DrillFields.groupBytes_write (f : DrillFields) (g : Nat) (v : List Byte) (hg : g ≤ 2) (hv : v.length = 74) :
    (f.write g v).groupBytes g = v.take (f.groupBytes g).length := by
  obtain rfl | rfl | rfl : g = 0 ∨ g = 1 ∨ g = 2 := by omega
  · rw [(f.groupBytes_zero _ rfl).1, take_eq_map_byteAt v 24 (by omega)]
    simp only [DrillFields.groupBytes, DrillFields.write, u16_natAt16, um_intAt]
    rfl
  · rw [(f.groupBytes_one _ rfl).1, take_eq_map_byteAt v 32 (by omega)]
    simp only [DrillFields.groupBytes, DrillFields.write, u16_natAt16, um_intAt, u8_toNat]
    rfl
  · rw [(f.groupBytes_two _ rfl).1, take_eq_map_byteAt v 8 (by omega)]
    simp only [DrillFields.groupBytes, DrillFields.write, u16_natAt16, um_intAt, u8_toNat]
    rfl

/-- R96, R101: a set group reads back as sent, with an ACCEPT_SUSPECT of 0 or 1. -/
theorem SetFields.groupBytes_write (f : SetFields) (g : Nat) (v : List Byte) (hg : g ≤ 2) (hv : v.length = 74)
    (hflag : g = 2 → (byteAt v 12).toNat ≤ 1) : (f.write g v).groupBytes g = v.take (f.groupBytes g).length := by
  obtain rfl | rfl | rfl : g = 0 ∨ g = 1 ∨ g = 2 := by omega
  · rw [(f.groupBytes_zero _ rfl).1, take_eq_map_byteAt v 22 (by omega)]
    simp only [SetFields.groupBytes, SetFields.write, u16_natAt16, um_intAt]
    rfl
  · rw [(f.groupBytes_one _ rfl).1, take_eq_map_byteAt v 15 (by omega)]
    simp only [SetFields.groupBytes, SetFields.write, u16_natAt16, um_intAt, u8_toNat]
    rfl
  · rw [(f.groupBytes_two _ rfl).1, take_eq_map_byteAt v 13 (by omega)]
    simp only [SetFields.groupBytes, SetFields.write, um_intAt, flagByte_beq_one _ (hflag rfl)]
    rfl

/-- R97: the groups share no field. -/
theorem DrillFields.groupBytes_write_other (f : DrillFields) (g g' : Nat) (v : List Byte) (hg : g ≤ 2) (hg' : g' ≤ 2)
    (hne : g' ≠ g) : (f.write g v).groupBytes g' = f.groupBytes g' := by
  match g, g' with
  | 0, 1 | 0, 2 | 1, 0 | 1, 2 | 2, 0 | 2, 1 => rfl
  | 0, 0 | 1, 1 | 2, 2 => exact absurd rfl hne

theorem SetFields.groupBytes_write_other (f : SetFields) (g g' : Nat) (v : List Byte) (hg : g ≤ 2) (hg' : g' ≤ 2)
    (hne : g' ≠ g) : (f.write g v).groupBytes g' = f.groupBytes g' := by
  match g, g' with
  | 0, 1 | 0, 2 | 1, 0 | 1, 2 | 2, 0 | 2, 1 => rfl
  | 0, 0 | 1, 1 | 2, 2 => exact absurd rfl hne

/-- R101: the group that was written, read back. -/
theorem fieldGroupBytes_write_same (q : Profile) (group : Byte) (values : List Byte)
    (hok : fieldsBad q.body group.toNat values = false) (hlen : values.length = 74) :
    fieldGroupBytes (some { q with body := q.body.write group.toNat values }) group.toNat
      = values.take (fieldGroupBytes (some q) group.toNat).length := by
  obtain ⟨state, body, comparators, clamped⟩ := q
  simp only [fieldsBad, Bool.or_eq_false_iff, decide_eq_false_iff_not] at hok
  obtain ⟨hgroup, hflag⟩ := hok
  cases body with
  | drill f layers => exact f.groupBytes_write _ values (by omega) hlen
  | set f =>
    rw [decide_eq_false_iff_not] at hflag
    exact f.groupBytes_write _ values (by omega) hlen fun h => Nat.not_lt.mp fun hgt => hflag ⟨h, hgt⟩

/-- R97: the other groups stand. -/
theorem fieldGroupBytes_write_other (q : Profile) (group g : Nat) (values : List Byte) (hgroup : group ≤ 2) (hg : g ≤ 2)
    (hne : g ≠ group) :
    fieldGroupBytes (some { q with body := q.body.write group values }) g = fieldGroupBytes (some q) g := by
  obtain ⟨state, body, comparators, clamped⟩ := q
  cases body with
  | drill f layers => exact f.groupBytes_write_other group g values hgroup hg hne
  | set f => exact f.groupBytes_write_other group g values hgroup hg hne

theorem Body.kind_write (b : Body) (group : Nat) (values : List Byte) : (b.write group values).kind = b.kind := by
  cases b <;> rfl

/-- Settles O38: by the checks, and the bytes of each group after the write. -/
theorem profileFieldsReplaceOneGroup : Obligations.ProfileFieldsReplaceOneGroup := by
  intro p group values s ha
  obtain ⟨hdone, hrefused⟩ := State.onRequest_answered ha (profileFields_eq p group values s)
  refine ⟨fun hok q hq => ?_, hrefused⟩
  have hgood : fieldsBad q.body group.toNat values = false := by
    simp only [profileFieldsChecks, firstFailing_cons_none, profileSets_some hq] at hok
    obtain ⟨_, _, hgood, _⟩ := hok
    rwa [fieldsBad_eq]
  have hgroup : group.toNat ≤ 2 := by
    simp only [fieldsBad, Bool.or_eq_false_iff, decide_eq_false_iff_not, Nat.not_lt] at hgood
    exact hgood.1
  rw [Station.modProfile_some _ _ _ q hq] at hdone
  exact ⟨hdone hok, fieldGroupBytes_write_same q group values hgood,
    fun g hg hne => fieldGroupBytes_write_other q _ g values hgroup hg hne, q.body.layers_write _ values,
    q.body.kind_write _ values⟩

end Sys2Proof.Machine
end

section
/-!
PROFILE LAYER and PROFILE COMPARATOR (R98, R99): one slot of a LOADING profile, written as sent or emptied.
-/
namespace Sys2Proof.Machine

/-! ## PROFILE LAYER -/

/-- R98: a layer list with one slot written, or emptied by a thickness of 0. -/
def writtenLayer (i : Nat) (thickness feed : Word) (layers : Table Layer) : Table Layer :=
  if thickness.toInt = 0 then Table.remove layers i
  else Table.put layers i { thickness := thickness.toInt, feed := feed.toInt }

/-- The body with its layer list changed; a set profile has none (R96). -/
def Body.modLayers (g : Table Layer → Table Layer) : Body → Body
  | .drill f layers => .drill f (g layers)
  | .set f => .set f

theorem profileLayer_whileLoading (p i : Byte) (thickness feed : Word) (s : Station) :
    profileLayer p i thickness feed s =
      if 31 < p.toNat ∨ i.toNat < 1 ∨ 6 < i.toNat then (s, .refused .badIndex)
      else s.whileLoading p.toNat fun q =>
        match q.body with
        | .set _ => (s, .refused .operation)
        | .drill f layers =>
          (s.putProfile p.toNat
            { q with
              body := .drill f
                (if thickness = 0 then Table.remove layers i.toNat
                 else Table.put layers i.toNat { thickness := thickness.toInt, feed := feed.toInt }) }, .done []) := rfl

/-- R98: the checks of PROFILE LAYER in their order, and what it does when none fails. -/
theorem profileLayer_eq (p i : Byte) (thickness feed : Word) (s : State) :
    profileLayer p i thickness feed s.toStation = answered (firstFailing (profileLayerChecks p i s))
      (s.modProfile p.toNat fun q => { q with body := q.body.modLayers (writtenLayer i.toNat thickness feed) })
      s.toStation := by
  have hzero : thickness = 0 ↔ thickness.toInt = 0 := (BitVec.toInt_inj (x := thickness) (y := 0)).symm
  rw [profileLayer_whileLoading, profileLayerChecks, answered_cons]
  refine ite_congr (by simp) (fun _ => rfl) fun _ => Station.whileLoading_answered fun q hq => ?_
  rw [answered_cons, answered_nil, profileSets_some hq, Station.modProfile_some _ _ _ q hq]
  obtain ⟨state, body, comparators, clamped⟩ := q
  cases body with
  | drill f layers =>
    simp only [hzero]
    rfl
  | set f => rfl

/-! ## PROFILE COMPARATOR -/

theorem Source.ofCode_code (x : Source) : Source.ofCode x.code = some x := by cases x <;> rfl

theorem Condition.ofCode_code (x : Condition) : Condition.ofCode x.code = some x := by cases x <;> rfl

theorem Action.ofCode_code (x : Action) : Action.ofCode x.code = some x := by cases x <;> rfl

/-- R99: the bytes that name no source. -/
theorem Source.ofCode_eq_none_iff (b : Byte) : Source.ofCode b = none ↔ b.toNat = 0 ∨ 6 < b.toNat := by
  unfold Source.ofCode
  split
  case h_7 =>
    refine iff_of_true rfl ?_
    simp only [imp_false] at *
    omega
  all_goals exact iff_of_false nofun (by omega)

theorem Condition.ofCode_eq_none_iff (b : Byte) : Condition.ofCode b = none ↔ 3 < b.toNat := by
  unfold Condition.ofCode
  split
  case h_5 =>
    refine iff_of_true rfl ?_
    simp only [imp_false] at *
    omega
  all_goals exact iff_of_false nofun (by omega)

theorem Action.ofCode_eq_none_iff (b : Byte) : Action.ofCode b = none ↔ 4 < b.toNat := by
  unfold Action.ofCode
  split
  case h_6 =>
    refine iff_of_true rfl ?_
    simp only [imp_false] at *
    omega
  all_goals exact iff_of_false nofun (by omega)

/-- R99: the record that the bytes of PROFILE COMPARATOR spell; none where a code is in no list. -/
def sentComparator (source condition : Byte) (low high : Word) (mask : Half) (count action : Byte) : Option Comparator :=
  match Source.ofCode source, Condition.ofCode condition, Action.ofCode action with
  | some src, some cond, some act =>
    some { source := src, condition := cond, low := low.toInt, high := high.toInt, mask, count := count.toNat, action := act }
  | _, _, _ => none

theorem sentComparator_codes (src : Source) (cond : Condition) (low high : Word) (mask : Half) (count : Byte) (act : Action) :
    sentComparator src.code cond.code low high mask count act.code =
      some { source := src, condition := cond, low := low.toInt, high := high.toInt, mask
             count := count.toNat, action := act } := by
  simp only [sentComparator, Source.ofCode_code, Condition.ofCode_code, Action.ofCode_code]

/-- R99: the BAD_VALUE check of a comparator that is written. -/
theorem sentComparator_eq_none_iff (source condition : Byte) (low high : Word) (mask : Half) (count action : Byte)
    (h0 : source ≠ 0) :
    sentComparator source condition low high mask count action = none ↔
      6 < source.toNat ∨ 3 < condition.toNat ∨ 4 < action.toNat := by
  have hs : source.toNat ≠ 0 := fun h => h0 (BitVec.eq_of_toNat_eq h)
  have hsource : Source.ofCode source = none ↔ 6 < source.toNat :=
    (Source.ofCode_eq_none_iff source).trans (or_iff_right hs)
  rw [← hsource, ← Condition.ofCode_eq_none_iff, ← Action.ofCode_eq_none_iff, sentComparator]
  cases Source.ofCode source with
  | none => simp
  | some src =>
    cases Condition.ofCode condition with
    | none => simp
    | some cond => cases Action.ofCode action <;> simp

/-- R99: a comparator list with one slot emptied, or written where there is a record for it. -/
def writtenComparator (k : Nat) (c : Option Comparator) (slots : Table Comparator) : Table Comparator :=
  match c with
  | none => Table.remove slots k
  | some c => Table.put slots k c

theorem profileComparator_whileLoading (p k source condition : Byte) (low high : Word) (mask : Half) (count action : Byte)
    (s : Station) :
    profileComparator p k source condition low high mask count action s =
      if 31 < p.toNat ∨ 5 < k.toNat then (s, .refused .badIndex)
      else s.whileLoading p.toNat fun q =>
        if source = 0 then
          (s.putProfile p.toNat { q with comparators := Table.remove q.comparators k.toNat }, .done [])
        else
          match sentComparator source condition low high mask count action with
          | some c => (s.putProfile p.toNat { q with comparators := Table.put q.comparators k.toNat c }, .done [])
          | none => (s, .refused .badValue) := by
  unfold profileComparator sentComparator
  cases Source.ofCode source with
  | none => rfl
  | some src =>
    cases Condition.ofCode condition with
    | none => rfl
    | some cond => cases Action.ofCode action <;> rfl

/-- R99: the checks of PROFILE COMPARATOR in their order, and what it does when none fails. -/
theorem profileComparator_eq (p k source condition : Byte) (low high : Word) (mask : Half) (count action : Byte) (s : State) :
    profileComparator p k source condition low high mask count action s.toStation =
      answered (firstFailing (profileComparatorChecks p k source condition action s))
        (s.modProfile p.toNat fun q =>
          { q with
            comparators := writtenComparator k.toNat
              (if source = 0 then none else sentComparator source condition low high mask count action) q.comparators })
        s.toStation := by
  rw [profileComparator_whileLoading, profileComparatorChecks, answered_cons]
  refine ite_congr (by simp) (fun _ => rfl) fun _ => Station.whileLoading_answered fun q hq => ?_
  rw [answered_cons, answered_nil, Station.modProfile_some _ _ _ q hq]
  by_cases h0 : source = 0
  · subst h0; rfl
  · have hbad := sentComparator_eq_none_iff source condition low high mask count action h0
    simp only [h0, if_false, ne_eq, not_false_eq_true, true_and, ← hbad, decide_eq_true_eq]
    cases sentComparator source condition low high mask count action <;> rfl

/-- Settles O39: the slot of a LOADING profile, layer or comparator, is written as sent. -/
theorem profileSlotsAreWrittenAsSent : Obligations.ProfileSlotsAreWrittenAsSent := by
  refine ⟨fun p i thickness feed s ha => ?_, fun p k source condition low high mask count action s ha => ?_⟩
  · obtain ⟨hdone, hrefused⟩ := State.onRequest_answered ha (profileLayer_eq p i thickness feed s)
    refine ⟨fun hok q f layers hq hb => ?_, hrefused⟩
    rw [Station.modProfile_some _ _ _ q hq, hb] at hdone
    exact hdone hok
  · obtain ⟨hdone, hrefused⟩ :=
      State.onRequest_answered ha (profileComparator_eq p k source condition low high mask count action s)
    refine ⟨fun hok q hq => ?_, hrefused⟩
    rw [Station.modProfile_some _ _ _ q hq] at hdone
    refine ⟨fun h0 => ?_, fun src cond act hsrc hcond hact => ?_⟩
    · rw [if_pos h0] at hdone
      exact hdone hok
    · subst hsrc hcond hact
      rw [if_neg (by cases src <;> decide), sentComparator_codes] at hdone
      exact hdone hok

end Sys2Proof.Machine
end

section
/-!
PROFILE END (R95, R96, R98 to R100): the ranges, the structural checks, and how a profile is closed.
-/
namespace Sys2Proof.Machine

/-! ## The ranges -/

/-- R95, R98, R100: the ranges of a drill profile's fields and of its layers. -/
theorem Body.clamp_drill (f : DrillFields) (layers : Table Layer) :
    (Body.drill f layers).clamp
      = .drill
          { spindleSpeed := max 100 (min 6000 f.spindleSpeed), spinUpLimit := max 1 (min 4000 f.spinUpLimit)
            approachSpeed := max 1 (min 4000 f.approachSpeed), acceleration := max 1 (min 200 f.acceleration)
            clearance := max 500 (min 20000 f.clearance), rampMargin := max 0 (min 10000 f.rampMargin)
            retractSpeed := max 1 (min 4000 f.retractSpeed), contactForce := max 50 (min 20000 f.contactForce)
            contactCount := max 1 (min 4 f.contactCount), contactWindow := max 500 (min 20000 f.contactWindow)
            exitSpeed := max 1 (min 400 f.exitSpeed), exitWindow := max 500 (min 20000 f.exitWindow)
            breakthroughForce := min 20000 f.breakthroughForce
            breakthroughCount := max 1 (min 8 f.breakthroughCount), lateLimit := max 0 (min 20000 f.lateLimit)
            overtravel := max 0 (min 10000 f.overtravel), stackTolerance := max 0 (min 10000 f.stackTolerance)
            overloadForce := min 65535 f.overloadForce, chipLoadTorque := min 65535 f.chipLoadTorque
            torqueCount := max 1 (min 8 f.torqueCount), maxPecks := max 1 (min 15 f.maxPecks)
            resumeBackoff := max 200 (min 5000 f.resumeBackoff) }
          (layers.map fun e =>
            (e.1, { thickness := max 500 (min 60000 e.2.thickness), feed := max 1 (min 400 e.2.feed) })) := by
  simp (disch := decide) only [Body.clamp, DrillFields.clamp, Layer.clamp, clampInt_eq, clampNat_eq, Nat.zero_max]

/-- R96, R100: the ranges of a set profile's fields. -/
theorem Body.clamp_set (f : SetFields) :
    (Body.set f).clamp
      = .set
          { feedLimit := max 1 (min 4000 f.feedLimit), advanceSpeed := max 1 (min 4000 f.advanceSpeed)
            acceleration := max 1 (min 200 f.acceleration), clearance := max 500 (min 20000 f.clearance)
            squeezeSpeed := max 1 (min 400 f.squeezeSpeed), retractSpeed := max 1 (min 4000 f.retractSpeed)
            contactForce := max 10 (min 5000 f.contactForce), contactCount := max 1 (min 4 f.contactCount)
            gripWindow := max 200 (min 10000 f.gripWindow), setForce := max 100 (min 60000 f.setForce)
            holdForce := max 100 (min 60000 f.holdForce), dwell := max 1 (min 1000 f.dwell)
            overloadForce := min 65535 f.overloadForce, formedMin := max 500 (min 30000 f.formedMin)
            formedMax := max 500 (min 30000 f.formedMax), nominalGrip := max 1000 (min 150000 f.nominalGrip)
            acceptSuspect := f.acceptSuspect } := by
  simp (disch := decide) only [Body.clamp, SetFields.clamp, clampInt_eq, clampNat_eq, Nat.zero_max]

/-- R99, R100: the range of a comparator's count. -/
theorem Comparator.clamp_eq (k : Comparator) : k.clamp = { k with count := max 1 (min 8 k.count) } := by
  rw [Comparator.clamp, clampNat_eq _ _ _ (by decide)]

/-! ## The structural checks -/

/-- R100: the last check of the table. -/
def limitsCheck (bad : Bool) : Option InvalidReason := if bad = true then some .comparatorLimits else none

theorem Comparator.limitsBad_eq (k : Comparator) :
    k.limitsBad = decide ((k.condition = .inside ∨ k.condition = .outside) ∧ k.high < k.low) := by
  simp [Comparator.limitsBad, Bool.beq_eq_decide_eq, Bool.decide_and, Bool.decide_or]

/-- R100: the checks of the kind come before that of the comparators. -/
theorem structuralFailure_eq (b : Body) (cs : Table Comparator) (bad : Bool)
    (hbad : bad = cs.any fun e => decide ((e.2.condition = .inside ∨ e.2.condition = .outside) ∧ e.2.high < e.2.low)) :
    structuralFailure b cs = b.unsound.or (limitsCheck bad) := by
  subst hbad
  simp only [structuralFailure, Comparator.limitsBad_eq]
  cases b.unsound <;> rfl

/-- A check in front of others is the first to fail when it fails. -/
theorem or_ite_some {α : Type} (c : Prop) [Decidable c] (a : α) (x y : Option α) :
    (if c then some a else x).or y = if c then some a else x.or y := by
  split <;> rfl

/-- R100: the checks of a drill profile with layers, in their order. -/
theorem Body.unsound_drill (f : DrillFields) (layers : Table Layer) (n : Nat) (last : Layer)
    (hlast : layers.getLast? = some (n, last)) :
    (Body.drill f layers).unsound =
      if layers.map Prod.fst ≠ (List.range layers.length).map (· + 1) then some .layerGap
      else if last.thickness ≤ f.exitWindow then some .exitWindow
      else if f.contactForce ≤ f.breakthroughForce then some .breakthroughForce
      else if f.overloadForce ≤ f.contactForce then some .overload
      else none := by
  simp only [Body.unsound, hlast, gapless, beq_eq_false_iff_ne]

/-! ## PROFILE END -/

theorem profileEnd_whileLoading (p : Byte) (s : Station) :
    profileEnd p s =
      if 31 < p.toNat then (s, .refused .badIndex)
      else s.whileLoading p.toNat fun q =>
        (if q.close.state = .valid then s.putProfile p.toNat q.close
          else (s.putProfile p.toNat q.close).raise .profileInvalid,
         if q.close.clamped then .clamped [profileStateCode (some q.close), invalidReasonCode (some q.close)]
         else .done [profileStateCode (some q.close), invalidReasonCode (some q.close)]) := rfl

/-- R100: the checks of PROFILE END. -/
theorem profileEnd_refused (p : Byte) (s : State) (why : Denial) (hwhy : firstFailing (profileEndChecks p s) = some why) :
    profileEnd p s.toStation = (s.toStation, .refused why) := by
  rw [profileEnd_whileLoading]
  simp only [profileEndChecks, firstFailing_cons_some, firstFailing_nil, decide_eq_true_eq, decide_eq_false_iff_not,
    Bool.not_eq_true', reduceCtorEq, and_false, or_false] at hwhy
  obtain ⟨hp, rfl⟩ | ⟨hp, hl, rfl⟩ := hwhy
  · rw [if_pos hp]
  · rw [if_neg hp, Station.whileLoading_not_loading _ hl]

/-- R100: PROFILE END of a LOADING profile, by the profile that it leaves. -/
theorem profileEnd_loading (p : Byte) (s : State) (q : Profile) (hok : firstFailing (profileEndChecks p s) = none)
    (hq : s.profile p.toNat = some q) :
    profileEnd p s.toStation =
      (if q.close.state = .valid then s.putProfile p.toNat q.close
        else (s.putProfile p.toNat q.close).raise .profileInvalid,
       if q.close.clamped then .clamped [profileStateCode (some q.close), invalidReasonCode (some q.close)]
       else .done [profileStateCode (some q.close), invalidReasonCode (some q.close)]) := by
  simp only [profileEndChecks, firstFailing_cons_none, decide_eq_false_iff_not, Bool.not_eq_false'] at hok
  obtain ⟨hp, hl, _⟩ := hok
  rw [profileEnd_whileLoading, if_neg hp, Station.whileLoading_loading _ hq hl]

/-- R162: an answer with data, CLAMPED or not. -/
theorem State.onRequest_closed {f : Station → Station × Reply} {s : State} {u : Station} {data : List Byte} {clamped : Bool}
    (ha : s.ring.active = true) (hf : f s.toStation = (u, if clamped then .clamped data else .done data)) :
    s.onRequest f =
      .next ((if clamped then State.clampedWith data else State.doneWith data) { s with toStation := u }) := by
  cases clamped
  · exact State.onRequest_done ha hf
  · exact State.onRequest_clamped ha hf

/-- R100: a profile whose structure is sound is closed VALID. -/
theorem Profile.close_sound (q : Profile)
    (h : structuralFailure q.body.clamp (q.comparators.map fun e => (e.1, e.2.clamp)) = none) :
    q.close = { q.close with state := .valid } := by
  simp only [Profile.close, h]

/-- R100: any other is closed INVALID, with the first check that fails. -/
theorem Profile.close_unsound (q : Profile) (why : InvalidReason)
    (h : structuralFailure q.body.clamp (q.comparators.map fun e => (e.1, e.2.clamp)) = some why) :
    q.close = { q.close with state := .invalid why } := by
  simp only [Profile.close, h]

/-- R100: PROFILE END of a profile that is found sound. -/
theorem profileEnd_sound (p : Byte) (s : State) (q : Profile) (hok : firstFailing (profileEndChecks p s) = none)
    (hq : s.profile p.toNat = some q)
    (h : structuralFailure q.body.clamp (q.comparators.map fun e => (e.1, e.2.clamp)) = none) :
    profileEnd p s.toStation =
      (s.putProfile p.toNat { q.close with state := .valid },
       if q.close.clamped then .clamped [0x02, 0x00] else .done [0x02, 0x00]) := by
  have hstate : q.close.state = .valid := congrArg Profile.state (q.close_sound h)
  rw [profileEnd_loading p s q hok hq, if_pos hstate, ← q.close_sound h]
  simp only [profileStateCode, invalidReasonCode, hstate]

/-- R100: PROFILE END of a profile that is found unsound. -/
theorem profileEnd_unsound (p : Byte) (s : State) (q : Profile) (why : InvalidReason)
    (hok : firstFailing (profileEndChecks p s) = none) (hq : s.profile p.toNat = some q)
    (h : structuralFailure q.body.clamp (q.comparators.map fun e => (e.1, e.2.clamp)) = some why) :
    profileEnd p s.toStation =
      ((s.putProfile p.toNat { q.close with state := .invalid why }).raise .profileInvalid,
       if q.close.clamped then .clamped [0x03, why.code] else .done [0x03, why.code]) := by
  have hstate : q.close.state = .invalid why := congrArg Profile.state (q.close_unsound why h)
  rw [profileEnd_loading p s q hok hq, if_neg (by rw [hstate]; exact nofun), ← q.close_unsound why h]
  simp only [profileStateCode, invalidReasonCode, hstate]

/-- Settles O40: by the structure that the clamped profile has, and its checks one after the other. -/
theorem profileEndClampsAndChecks : Obligations.ProfileEndClampsAndChecks := by
  refine ⟨fun p s ha => ⟨fun hok q body comparators clamped hq hb hc hcl => ?_,
    fun why hwhy => State.onRequest_refused ha (profileEnd_refused p s why hwhy)⟩, Body.clamp_drill, Body.clamp_set,
    Comparator.clamp_eq, fun f layers cs bad hbad => ⟨rfl, fun n last hlast => ?_⟩, fun f cs bad hbad => ?_⟩
  · subst hb hc hcl
    exact ⟨fun h => State.onRequest_closed ha (profileEnd_sound p s q hok hq h),
      fun why h => State.onRequest_closed ha (profileEnd_unsound p s q why hok hq h)⟩
  · rw [structuralFailure_eq _ cs bad hbad, Body.unsound_drill f layers n last hlast]
    simp only [or_ite_some, Option.none_or, limitsCheck]
  · rw [structuralFailure_eq _ cs bad hbad]
    simp only [Body.unsound, or_ite_some, Option.none_or, limitsCheck]

end Sys2Proof.Machine
end

section
/-!
The ramp generator (R108 to R112): the candidate speed, the ramp test, the boundary, D(c, w), and the steps of a stop.
-/
namespace Sys2Proof.Machine

/-! ## The ramp test -/

/-- R108: the candidate speed of a step in a phase. -/
def Leg.candidate (a : Int) (l : Leg) (phase : Phase) (s : Int) : Int :=
  Machine.candidate a s (if phase = .rampDown then l.w a else l.target)

theorem Leg.falls_iff (a : Int) (l : Leg) (phase : Phase) (p c : Int) :
    l.falls a phase p c = true ↔
      phase = .run ∧ l.w a < c ∧ l.remaining p c < slowDistance a c (l.w a) + l.margin := decide_eq_true_iff

/-- R108: a step that goes to RAMP-DOWN slows by the acceleration, not below the end speed. -/
theorem rampStep_falls (a : Int) (l : Leg) (phase : Phase) (p s : Int)
    (h : l.falls a phase p (l.candidate a phase s) = true) :
    (rampStep a l phase p s).s = max (s - a) (l.w a) ∧ (rampStep a l phase p s).phase = .rampDown :=
  ⟨if_pos h, if_pos h⟩

/-- R108: any other step takes the candidate and keeps the phase. -/
theorem rampStep_goesOn (a : Int) (l : Leg) (phase : Phase) (p s : Int)
    (h : ¬ l.falls a phase p (l.candidate a phase s) = true) :
    (rampStep a l phase p s).s = l.candidate a phase s ∧ (rampStep a l phase p s).phase = phase :=
  ⟨if_neg h, if_neg h⟩

/-- R110: the setpoint moves by the new speed, up to the boundary. -/
theorem rampStep_p (a : Int) (l : Leg) (phase : Phase) (p s : Int) :
    (rampStep a l phase p s).p = l.advance p (rampStep a l phase p s).s := rfl

theorem rampStep_atBound_iff (a : Int) (l : Leg) (phase : Phase) (p s : Int) :
    (rampStep a l phase p s).atBound = true ↔ (rampStep a l phase p s).p = l.bound := decide_eq_true_iff

/-- R108: only RUN goes to another phase. -/
theorem rampStep_phase_of_ne_run (a : Int) (l : Leg) (phase : Phase) (p s : Int) (h : phase ≠ .run) :
    (rampStep a l phase p s).phase = phase :=
  (rampStep_goesOn a l phase p s fun hf => h ((l.falls_iff a phase p _).mp hf).1).2

/-! ## The speed -/

theorem candidate_near (a s target : Int) (ha : 0 ≤ a) :
    s - a ≤ Machine.candidate a s target ∧ Machine.candidate a s target ≤ s + a := by
  unfold Machine.candidate
  split
  · omega
  · split <;> omega

/-- R108: a step changes the speed by at most the acceleration. A step to RAMP-DOWN does too, because the end speed is then below
the candidate. -/
theorem rampStep_s_near (a : Int) (l : Leg) (phase : Phase) (p s : Int) (ha : 0 ≤ a) :
    ((rampStep a l phase p s).s - s).natAbs ≤ a := by
  obtain ⟨hlow, hhigh⟩ : s - a ≤ l.candidate a phase s ∧ l.candidate a phase s ≤ s + a := candidate_near a s _ ha
  by_cases hf : l.falls a phase p (l.candidate a phase s) = true
  · obtain ⟨_, hend, _⟩ := (l.falls_iff a phase p _).mp hf
    rw [(rampStep_falls a l phase p s hf).1]
    omega
  · rw [(rampStep_goesOn a l phase p s hf).1]
    omega

/-! ## D(c, w) -/

/-- One of two neighbours is even. -/
theorem two_dvd_mul_next (q : Int) : ∃ k, q * (q + 1) = 2 * k := by
  obtain hq | hq : q = 2 * (q / 2) ∨ q + 1 = 2 * (q / 2 + 1) := by omega
  · exact ⟨q / 2 * (q + 1), by rw [← Int.mul_assoc, ← hq]⟩
  · exact ⟨q * (q / 2 + 1), by rw [hq, Int.mul_left_comm]⟩

theorem two_mul_half_steps (a q : Int) : 2 * (a * (q * (q + 1)) / 2) = a * (q * (q + 1)) := by
  obtain ⟨k, hk⟩ := two_dvd_mul_next q
  rw [hk, Int.mul_left_comm, Int.mul_ediv_cancel_left _ (by decide)]

/-- R109: D(c, w) above the end speed, by the whole steps of the acceleration and what is left. -/
theorem slowDistance_of_steps (a c w q r : Int) (ha : 0 < a) (hw : w < c) (hq : c - w = q * a + r) (h0 : 0 ≤ r) (hr : r < a) :
    slowDistance a c w = q * c - a * (q * (q + 1)) / 2 + (if 0 < r then w else 0) := by
  have hquot : (c - w) / a = q := by
    rw [hq, Int.add_comm, Int.add_mul_ediv_right r q (Int.ne_of_gt ha), Int.ediv_eq_zero_of_lt h0 hr, Int.zero_add]
  have hrest : c - w - q * a = r := by omega
  rw [slowDistance, if_neg (Int.not_le.mpr hw), hquot]
  dsimp only
  rw [hrest]

/-! ## The steps of a stop -/

/-- R112: STOPPING slows inward, and ends at speed 0 or at the old boundary. -/
theorem stoppingStep_spec (a bound p s c : Int) (hc : c = max (s - a) 0) :
    (c = 0 → stoppingStep a bound p s = { p := p, s := 0, phase := .run, atBound := false })
      ∧ (c ≠ 0 → bound < p + c → stoppingStep a bound p s = { p := bound, s := 0, phase := .run, atBound := false })
      ∧ (c ≠ 0 → p + c ≤ bound →
        stoppingStep a bound p s = { p := p + c, s := c, phase := .stopping, atBound := false }) := by
  subst hc
  exact ⟨fun h0 => if_pos h0, fun h0 hb => (if_neg h0).trans (if_pos hb),
    fun h0 hb => (if_neg h0).trans (if_neg (Int.not_lt.mpr hb))⟩

/-- R112, R147: a held step slows the same way. -/
theorem heldStep_spec (a bound p s c : Int) (phase : Phase) (hc : c = max (s - a) 0) :
    (c = 0 → heldStep a bound phase p s = { p := p, s := 0, phase := phase, atBound := false })
      ∧ (c ≠ 0 → heldStep a bound phase p s = { p := min (p + c) bound, s := c, phase := phase, atBound := false }) := by
  have heq : heldStep a bound phase p s =
      { p := if c = 0 then p else min (p + c) bound, s := c, phase := phase, atBound := false } := by rw [hc]; rfl
  rw [heq]
  exact ⟨fun h0 => by rw [if_pos h0, h0], fun h0 => by rw [if_neg h0]⟩

/-- Settles O24. -/
theorem rampStepKeepsSpeedAndBoundary : Obligations.RampStepKeepsSpeedAndBoundary := by
  refine ⟨fun a l phase p s ha => ⟨rampStep_s_near a l phase p s ha, fun hout => ?_, fun hout => ?_,
      rampStep_atBound_iff a l phase p s, rampStep_phase_of_ne_run a l phase p s, ?_⟩,
    fun a c w q r ha => ⟨fun hcw => if_pos hcw, fun hwc hq h0 hr => ?_⟩,
    fun a l phase p s w target c remaining hw htarget hc hremaining => ?_,
    fun a bound p s c phase hc => ?_⟩
  · rw [rampStep_p, Leg.advance, hout]
    exact if_neg Bool.false_ne_true
  · rw [rampStep_p, Leg.advance, hout]
    exact if_pos rfl
  · by_cases hf : l.falls a phase p (l.candidate a phase s) = true
    · exact Or.inr (Or.inl (rampStep_falls a l phase p s hf).2)
    · exact Or.inr (Or.inr (rampStep_goesOn a l phase p s hf).2)
  · have hrest : 2 * (if 0 < r then w else 0) = if 0 < r then 2 * w else 0 := by split <;> rfl
    rw [slowDistance_of_steps a c w q r ha hwc hq h0 hr, Int.mul_add, Int.mul_sub, two_mul_half_steps, hrest, Int.mul_assoc]
  · subst hw htarget hc hremaining
    exact ⟨fun hf => rampStep_falls a l phase p s ((l.falls_iff a phase p _).mpr hf),
      fun hf => rampStep_goesOn a l phase p s fun h => hf ((l.falls_iff a phase p _).mp h)⟩
  · obtain ⟨hrest, hcut, hgo⟩ := stoppingStep_spec a bound p s c hc
    obtain ⟨hheldRest, hheldGo⟩ := heldStep_spec a bound p s c phase hc
    exact ⟨hrest, hcut, hgo, hheldRest, hheldGo⟩

end Sys2Proof.Machine
end

section
/-!
What a cycle return leaves in the station (R107, R126, R127), and two limits of a cycle: the spin-up limit (R116) and the
home wait (R127).
-/
namespace Sys2Proof.Machine

/-! ## The return of a cycle -/

/-- R107: a head in a cycle whose setpoint this frame carried. -/
theorem Head.cycleReturning_eq_some (w : Head) (c : Cycle) (p : Int) (hst : w.state.inCycle = true)
    (hc : w.engine = some c) (hp : c.sent = some p) : w.cycleReturning = some (c, p) := by
  simp only [Head.cycleReturning, hst, hc, hp, if_true, Option.map_some]

/-- R107: out of a cycle, or without a setpoint of this frame, no cycle returns. -/
theorem Head.cycleReturning_eq_none (w : Head) (h : w.state.inCycle = false ∨ ∀ c, w.engine = some c → c.sent = none) :
    w.cycleReturning = none :=
  Option.eq_none_iff_forall_ne_some.mpr fun ⟨c, p⟩ he => by
    obtain ⟨hst, hc, hp⟩ := Head.cycleReturning_spec w c p he
    obtain h | h := h
    · simp [h] at hst
    · simp [h c hc] at hp

/-- What a cycle return leaves of the cycle, the head state and the bank. -/
def Head.ran (r : Run) (w : Head) : Head := { w with engine := some r.cyc, state := r.state, bank := r.bank }

/-- R107: a return on which the cycle goes on. -/
theorem Station.putRun_going (h : HeadNo) (r : Run) (s : Station) (hv : r.verdict = .going) :
    s.putRun h r = (s.modHead h (Head.ran r)).raiseAll r.raised := by
  unfold Station.putRun
  rw [hv]
  rfl

/-- R127: a return that confirms the tool home. -/
theorem Station.putRun_home (h : HeadNo) (r : Run) (s : Station) (hv : r.verdict = .home) :
    s.putRun h r = ((s.modHead h (Head.ran r)).raiseAll r.raised).finishCycle h := by
  unfold Station.putRun
  rw [hv]
  rfl

/-- R127, R63: a return that finds the tool out of home waits. -/
theorem Station.putRun_lost (h : HeadNo) (r : Run) (s : Station) (hv : r.verdict = .lost) :
    s.putRun h r = ((s.modHead h (Head.ran r)).raiseAll r.raised).toFault h .toolNotHome := by
  unfold Station.putRun
  rw [hv]
  rfl

/-- A limit event that is met on a return of the cycle. -/
theorem Station.onLimit_due (h : HeadNo) (due : Head → Cycle → Bool) (f : Head → Run → Run) (s : Station) (c : Cycle) (p : Int)
    (ha : s.ring.active = true) (hc : (s.head h).cycleReturning = some (c, p)) (hdue : due (s.head h) c = true) :
    s.onLimit h due f = s.putRun h (f (s.head h) (.begin c (s.head h).state (s.head h).bank)) := by
  simp only [Station.onLimit, ha, hc, hdue, if_true]

/-! ## The spindle -/

theorem Run.onDrill_drill (f : DrillWork → Run → Run) (r : Run) (w : DrillWork) (hw : r.cyc.work = .drill w) :
    r.onDrill f = f w r := by
  simp only [Run.onDrill, hw]

theorem Run.putDrill_self (r : Run) (w : DrillWork) (hw : r.cyc.work = .drill w) : r.putDrill w = r := by
  rw [Run.putDrill, ← hw]

/-- R116: beyond the spin-up limit, without contact and never at speed, the cycle is ABORTED in a ramped stop. -/
theorem Run.spindle_late (fb : Feedback) (r : Run) (w : DrillWork) (hw : r.cyc.work = .drill w)
    (hdue : r.state = .engaged ∧ w.contact = none ∧ w.prof.spinUpLimit < r.cyc.frames)
    (hslow : (w.spindleReady || atSpeed fb w.prof.spindleSpeed) = false) :
    r.spindle fb =
      { r with
        state := .retracting
        cyc := ({ r.cyc with decision := some (.aborted, .spindle) } : Cycle).rampedRetract } := by
  obtain ⟨hst, hcontact, hlimit⟩ := hdue
  have hnotReady : w.spindleReady = false := (Bool.or_eq_false_iff.mp hslow).1
  have hsame : r.putDrill { w with spindleReady := false } = r := by
    rw [← hnotReady]
    exact r.putDrill_self w hw
  rw [Run.spindle, Run.onDrill_drill _ r w hw]
  dsimp only
  rw [hslow, hsame, if_pos ⟨hst, hcontact, hlimit, rfl⟩]
  rfl

/-- R116: any other return records whether the spindle is, or was, at speed. -/
theorem Run.spindle_recorded (fb : Feedback) (r : Run) (w : DrillWork) (hw : r.cyc.work = .drill w)
    (h : ¬ (r.state = .engaged ∧ w.contact = none ∧ w.prof.spinUpLimit < r.cyc.frames
      ∧ (w.spindleReady || atSpeed fb w.prof.spindleSpeed) = false)) :
    r.spindle fb = r.putDrill { w with spindleReady := w.spindleReady || atSpeed fb w.prof.spindleSpeed } := by
  rw [Run.spindle, Run.onDrill_drill _ r w hw]
  exact if_neg h

/-- R116: SPIN_UP_LIMIT of an ENGAGED drilling head without contact. -/
theorem Station.spinUpLimit_due (h : HeadNo) (spindle : Half) (s : Station) (c : Cycle) (d : DrillWork) (sent : Int)
    (ha : s.ring.active = true) (hst : (s.head h).state = .engaged) (hc : (s.head h).engine = some c)
    (hsent : c.sent = some sent) (hw : c.work = .drill d) (hcontact : d.contact = none)
    (hlimit : d.prof.spinUpLimit < c.frames) :
    s.spinUpLimit h spindle =
      s.putRun h ((Run.begin c (s.head h).state (s.head h).bank).spindle { quietFeedback with spindle := spindle.toNat }) := by
  have hreturns := Head.cycleReturning_eq_some (s.head h) c sent (by rw [hst]; rfl) hc hsent
  have hdue : spinUpDue (s.head h) c = true := by simp [spinUpDue, hst, hw, hcontact, hlimit]
  exact Station.onLimit_due h spinUpDue _ s c sent ha hreturns hdue

/-- A command that changes one head of the station. -/
theorem State.onStation_setHead {f : Station → Station} {s : State} {h : HeadNo} {w : Head}
    (hf : f s.toStation = s.toStation.setHead h w) : s.onStation f = .next (s.withHead h w) :=
  State.onStation_eq hf

/-- Settles O28. -/
theorem spinUpLimitAborts : Obligations.SpinUpLimitAborts := by
  refine ⟨fun h spindle s w c d sent ha hw hst hc hsent hwork hcontact hlimit => ?_, fun fb w r ready hw hready => ?_⟩
  · subst hw
    have hreturn := s.toStation.spinUpLimit_due h spindle c d sent ha hst hc hsent hwork hcontact hlimit
    refine ⟨fun hready => State.onStation_setHead ?_,
      fun hnot hslow => State.onStation_setHead ?_⟩
    · have hmark : (d.spindleReady || atSpeed { quietFeedback with spindle := spindle.toNat } d.prof.spindleSpeed) = true := by
        simpa [atSpeed] using hready
      rw [hreturn, Run.spindle_recorded _ _ d hwork (by simp [hmark]), hmark, Station.putRun_going h _ _ rfl]
      rfl
    · have hmark : (d.spindleReady || atSpeed { quietFeedback with spindle := spindle.toNat } d.prof.spindleSpeed) = false := by
        simpa [atSpeed, hnot] using hslow
      rw [hreturn, Run.spindle_late _ _ d hwork ⟨hst, hcontact, hlimit⟩ hmark, Station.putRun_going h _ _ rfl]
      rfl
  · subst hready
    exact ⟨fun ⟨hst, hcontact, hlimit, hslow⟩ => r.spindle_late fb w hw ⟨hst, hcontact, hlimit⟩ hslow,
      r.spindle_recorded fb w hw⟩

/-! ## The home wait -/

/-- R127: outside HOME WAIT, and for a frame that carried anything but 0, no home test is made. -/
theorem Run.homeTest_notDue (fb : Feedback) (band : Int) (r : Run) (h : r.cyc.phase ≠ .homeWait ∨ r.cyc.sent ≠ some 0) :
    r.homeTest fb band = r := if_neg fun ⟨hp, hs⟩ => h.elim (fun hn => hn hp) fun hn => hn hs

/-- R127: inside the home band with AT_HOME the tool is home. -/
theorem Run.homeTest_home (fb : Feedback) (band : Int) (r : Run) (hp : r.cyc.phase = .homeWait) (hs : r.cyc.sent = some 0)
    (h : fb.actual ≤ band ∧ fb.atHome = true) : r.homeTest fb band = { r with verdict := .home } :=
  (if_pos ⟨hp, hs⟩).trans (if_pos h)

/-- R127: a failed home test counts, up to the limit. -/
theorem Run.homeTest_failed (fb : Feedback) (band : Int) (r : Run) (hp : r.cyc.phase = .homeWait) (hs : r.cyc.sent = some 0)
    (h : ¬ (fb.actual ≤ band ∧ fb.atHome = true)) :
    r.homeTest fb band =
      { r with
        cyc := { r.cyc with homeWait := r.cyc.homeWait + 1 }
        verdict := if 1000 < r.cyc.homeWait + 1 then .lost else .going } :=
  (if_pos ⟨hp, hs⟩).trans (if_neg h)

/-- R127: TOOL_NOT_HOME of a head in HOME WAIT whose count stands at the limit. -/
theorem Station.toolNotHome_due (h : HeadNo) (actual : Word) (atHome : Bool) (s : Station) (c : Cycle)
    (ha : s.ring.active = true) (hst : (s.head h).state.inCycle = true) (hc : (s.head h).engine = some c)
    (hp : c.phase = .homeWait) (hsent : c.sent = some 0) (hlimit : 1000 ≤ c.homeWait) :
    s.toolNotHome h actual atHome =
      s.putRun h ((Run.begin c (s.head h).state (s.head h).bank).homeTest
        { quietFeedback with actual := actual.toInt, atHome } (s.head h).cfg.homeBand) := by
  have hreturns := Head.cycleReturning_eq_some (s.head h) c 0 hst hc hsent
  have hdue : homeDue (s.head h) c = true := by simp [homeDue, hp, hsent, hlimit]
  exact Station.onLimit_due h homeDue _ s c 0 ha hreturns hdue

/-- R127: a tool that is home at the limit ends its cycle. -/
theorem Station.toolNotHome_home (h : HeadNo) (actual : Word) (atHome : Bool) (s : Station) (c : Cycle)
    (ha : s.ring.active = true) (hst : (s.head h).state.inCycle = true) (hc : (s.head h).engine = some c)
    (hp : c.phase = .homeWait) (hsent : c.sent = some 0) (hlimit : 1000 ≤ c.homeWait)
    (hhome : actual.toInt ≤ (s.head h).cfg.homeBand ∧ atHome = true) :
    s.toolNotHome h actual atHome = s.finishCycle h := by
  have hsame : s.modHead h (Head.ran { Run.begin c (s.head h).state (s.head h).bank with verdict := .home }) = s := by
    rw [Station.modHead, Head.ran, Run.begin, ← hc]
    exact s.setHead_head h
  rw [s.toolNotHome_due h actual atHome c ha hst hc hp hsent hlimit, Run.homeTest_home _ _ _ hp hsent hhome,
    Station.putRun_home h _ s rfl, hsame]
  rfl

/-- R127, R63: a tool that is not home at the limit sends its head to FAULT. -/
theorem Station.toolNotHome_lost (h : HeadNo) (actual : Word) (atHome : Bool) (s : Station) (c : Cycle)
    (ha : s.ring.active = true) (hst : (s.head h).state.inCycle = true) (hc : (s.head h).engine = some c)
    (hp : c.phase = .homeWait) (hsent : c.sent = some 0) (hlimit : 1000 ≤ c.homeWait)
    (haway : ¬ (actual.toInt ≤ (s.head h).cfg.homeBand ∧ atHome = true)) :
    s.toolNotHome h actual atHome =
      (s.setHead h { s.head h with engine := some { c with homeWait := c.homeWait + 1 } }).toFault h .toolNotHome := by
  have hbeyond : 1000 < (Run.begin c (s.head h).state (s.head h).bank).cyc.homeWait + 1 := Nat.lt_succ_of_le hlimit
  rw [s.toolNotHome_due h actual atHome c ha hst hc hp hsent hlimit, Run.homeTest_failed _ _ _ hp hsent haway,
    if_pos hbeyond, Station.putRun_lost h _ s rfl]
  rfl

theorem HeadState.inService_of_inCycle (st : HeadState) (h : st.inCycle = true) : st.inService = true := by
  rw [HeadState.inService_iff]
  constructor
  · rintro rfl
    exact Bool.noConfusion h
  · rintro rfl
    exact Bool.noConfusion h

/-- Settles O29: what FAULT leaves is what `Head.faulted_fields` and the laws of `Station.toFault` say. -/
theorem toolNotHomeFaults : Obligations.ToolNotHomeFaults := by
  refine ⟨fun h actual atHome s w c ha hw hst hc hp hsent hlimit => ⟨fun hhome => ?_, fun haway => ?_⟩,
    fun fb band r => ⟨r.homeTest_notDue fb band,
      fun hp hs => ⟨r.homeTest_home fb band hp hs, r.homeTest_failed fb band hp hs⟩⟩⟩
  · subst hw
    exact State.onStation_eq
      (s.toStation.toolNotHome_home h actual atHome c ha hst hc hp hsent hlimit hhome)
  · subst hw
    have hreturn := s.toStation.toolNotHome_lost h actual atHome c ha hst hc hp hsent hlimit haway
    generalize hu : s.toStation.setHead h { s.head h with engine := some { c with homeWait := c.homeWait + 1 } } = u at hreturn
    have hservice : (u.head h).state.inService = true := by
      rw [← hu, Station.head_setHead_same]
      exact HeadState.inService_of_inCycle _ hst
    obtain ⟨hstate, hcause, _, hclaim, hengine, _, _⟩ := (u.head h).faulted_fields .toolNotHome
    rw [← Station.head_toFault_inService h _ u hservice] at hstate hcause hclaim hengine
    refine ⟨{ s with toStation := u.toFault h .toolNotHome },
      State.onStation_eq hreturn, hstate, hcause, hengine, hclaim, u.toFault_raised h _ hservice,
      fun j hj => ?_, ?_, ?_, ?_, ?_, ?_, rfl, rfl⟩
    · rw [Station.head_toFault_other h j _ u hj, ← hu, Station.head_setHead, if_neg hj.symm]
    · rw [Station.toFault_ring, ← hu, Station.setHead_ring]
    · rw [Station.toFault_profiles, ← hu, Station.setHead_profiles]
    · rw [Station.toFault_correction, ← hu, Station.setHead_correction]
    · rw [Station.toFault_keepOut, ← hu, Station.setHead_keepOut]
    · rw [Station.toFault_mgmt, ← hu, Station.setHead_mgmt]

end Sys2Proof.Machine
end

section
/-!
The stages of a drilling cycle: their legs (R115, R123), the speed from which a step starts (R110), the step of a return (R107 item
6, R112, R147), and what a boundary step brings (R110, R115, R120, R123, R127).
-/
namespace Sys2Proof.Machine

/-! ## Legs -/

/-- R115, R123: a leg depends on the stage alone once the items of the record are fixed. -/
theorem DrillWork.leg_of_stage (w : DrillWork) (ease : Option Nat) (ready : Bool) (st : DrillStage) (h : w.stage = st) :
    w.leg ease ready = { w with stage := st }.leg ease ready := by
  rw [← h]

/-- R115: a CUT stage that is not the last ends at the next plate. -/
theorem DrillWork.leg_cut (w : DrillWork) (ease : Option Nat) (ready : Bool) (i : Nat) (h : w.stage = .cut i)
    (hi : i < w.layers.length) :
    w.leg ease ready =
      { outward := false, target := if ease = some i then w.prof.exitSpeed else w.feed i
        bound := w.contact.getD 0 + w.depthTo i, endSpeed := w.feed (i + 1), margin := w.prof.rampMargin } := by
  simp only [DrillWork.leg, h, if_pos hi]

/-- R115: the last CUT stage ends at the exit window. -/
theorem DrillWork.leg_lastCut (w : DrillWork) (ease : Option Nat) (ready : Bool) (i : Nat) (h : w.stage = .cut i)
    (hi : w.layers.length ≤ i) :
    w.leg ease ready =
      { outward := false, target := if ease = some i then w.prof.exitSpeed else w.feed i
        bound := w.layerEnd.getD 0 - w.prof.exitWindow, endSpeed := w.prof.exitSpeed, margin := w.prof.rampMargin } := by
  simp only [DrillWork.leg, h, if_neg (Nat.not_lt.mpr hi)]

/-- R123: PECK_IN goes back to the depth of the peck, in the plate where it was made. -/
theorem DrillWork.leg_peckIn (w : DrillWork) (ease : Option Nat) (ready : Bool) (pk : Int) (i : Nat) (h : w.stage = .peckIn)
    (hpk : w.peckDepth = some pk) (hi : w.peckLayer = some i) :
    w.leg ease ready =
      { outward := false, target := w.prof.approachSpeed, bound := max (pk - w.prof.resumeBackoff) w.peckOutBound
        endSpeed := w.feed i, margin := w.prof.rampMargin } := by
  simp only [DrillWork.leg, h, hpk, hi, Option.getD_some]

/-! ## The speed from which a step starts -/

/-- R110: the two stages that run the other way than the one before them, at the boundary where they began. -/
theorem DrillWork.turning_iff (w : DrillWork) (p : Int) :
    w.turning p = true ↔
      (w.stage = .peckIn ∧ p = max (w.contact.getD 0 - w.prof.clearance) 0)
        ∨ (w.stage = .retract ∧ w.breakthrough.map (fun pb => pb + w.prof.overtravel) = some p) := by
  unfold DrillWork.turning
  cases w.stage <;> simp [DrillWork.peckOutBound]

theorem DrillWork.startSpeed_eq (w : DrillWork) (p s : Int) :
    w.startSpeed p s =
      if (w.stage = .peckIn ∧ p = max (w.contact.getD 0 - w.prof.clearance) 0)
          ∨ (w.stage = .retract ∧ w.breakthrough.map (fun pb => pb + w.prof.overtravel) = some p)
        then 0 else s := by
  simp only [DrillWork.startSpeed, DrillWork.turning_iff]

/-! ## The step of a return -/

/-- R107, R113: no step after a stop of this return, nor when the cycle ends. -/
theorem Run.drillStep_done (fb : Feedback) (r : Run) (h : r.stepDone = true ∨ r.verdict ≠ .going) : r.drillStep fb = r :=
  if_pos h

theorem Run.not_done_of_going {r : Run} (hd : r.stepDone = false) (hv : r.verdict = .going) :
    ¬ (r.stepDone = true ∨ r.verdict ≠ .going) := by
  simp [hd, hv]

section Due

variable (fb : Feedback) (r : Run) (w : DrillWork) (hw : r.cyc.work = .drill w) (hd : r.stepDone = false)
  (hv : r.verdict = .going)
include hw hd hv

/-- R147: a FROZEN head makes a held step. -/
theorem Run.drillStep_frozen (hst : r.state = .frozen) :
    r.drillStep fb =
      r.stepped (heldStep w.prof.acceleration (w.leg r.bank.ease (atSpeed fb w.prof.spindleSpeed)).bound r.cyc.phase r.cyc.p
        r.cyc.s) := by
  rw [Run.drillStep, if_neg (Run.not_done_of_going hd hv), Run.onDrill_drill _ r w hw]
  exact if_pos hst

/-- R127: a tool that waits at home does not move. -/
theorem Run.drillStep_homeWait (hst : r.state ≠ .frozen) (hp : r.cyc.phase = .homeWait) : r.drillStep fb = r := by
  rw [Run.drillStep, if_neg (Run.not_done_of_going hd hv), Run.onDrill_drill _ r w hw]
  simp only [if_neg hst, hp]

/-- R112: a step of a stop. -/
theorem Run.drillStep_stopping (hst : r.state ≠ .frozen) (hp : r.cyc.phase = .stopping) :
    r.drillStep fb = r.stepped (stoppingStep w.prof.acceleration r.cyc.stopBound r.cyc.p r.cyc.s) := by
  rw [Run.drillStep, if_neg (Run.not_done_of_going hd hv), Run.onDrill_drill _ r w hw]
  simp only [if_neg hst, hp]

/-- R108, R110: a step of the ramp, and what it brings at the boundary. -/
theorem Run.drillStep_moving (hst : r.state ≠ .frozen) (hp : r.cyc.phase = .run ∨ r.cyc.phase = .rampDown) (d : Stepped)
    (hstep : d = rampStep w.prof.acceleration (w.leg r.bank.ease (atSpeed fb w.prof.spindleSpeed)) r.cyc.phase r.cyc.p
      (w.startSpeed r.cyc.p r.cyc.s)) :
    r.drillStep fb = if d.atBound then (r.stepped d).drillBoundary w else r.stepped d := by
  rw [Run.drillStep, if_neg (Run.not_done_of_going hd hv), Run.onDrill_drill _ r w hw, hstep]
  obtain hp | hp := hp
  · simp only [if_neg hst, hp]
  · simp only [if_neg hst, hp]

end Due

/-! ## Boundary steps -/

/-- R110: in the stages that have a boundary test of their own, a boundary step changes nothing else. -/
theorem Run.drillBoundary_tested (w : DrillWork) (r : Run) (h : w.stage = .seek ∨ w.stage = .exit) : r.drillBoundary w = r := by
  unfold Run.drillBoundary
  obtain h | h := h
  · rw [h]
  · rw [h]

/-- R115: APPROACH gives way to SEEK. -/
theorem Run.drillBoundary_approach (w : DrillWork) (r : Run) (h : w.stage = .approach) :
    r.drillBoundary w = r.nextStage w .seek := by
  rw [Run.drillBoundary, h]

/-- R115: a CUT stage gives way to the next one, or to EXIT, and its ease ends (R146). -/
theorem Run.drillBoundary_cut (w : DrillWork) (r : Run) (i : Nat) (h : w.stage = .cut i) :
    r.drillBoundary w =
      Run.nextStage w (if i < w.layers.length then .cut (i + 1) else .exit)
        { r with bank := { r.bank with ease := if r.bank.ease = some i then none else r.bank.ease } } := by
  rw [Run.drillBoundary, h]

/-- R120: OVERTRAVEL ends with the stack check. -/
theorem Run.drillBoundary_overtravel (w : DrillWork) (r : Run) (h : w.stage = .overtravel) :
    r.drillBoundary w = r.stackCheck w := by
  rw [Run.drillBoundary, h]

/-- R123: PECK_OUT gives way to PECK_IN. -/
theorem Run.drillBoundary_peckOut (w : DrillWork) (r : Run) (h : w.stage = .peckOut) :
    r.drillBoundary w = r.nextStage w .peckIn := by
  rw [Run.drillBoundary, h]

/-- R123: PECK_IN gives way to the CUT stage of the peck. -/
theorem Run.drillBoundary_peckIn (w : DrillWork) (r : Run) (i : Nat) (h : w.stage = .peckIn) (hi : w.peckLayer = some i) :
    r.drillBoundary w = r.nextStage w (.cut i) := by
  rw [Run.drillBoundary, h, hi]
  rfl

/-- R127: RETRACT waits at home. -/
theorem Run.drillBoundary_retract (w : DrillWork) (r : Run) (h : w.stage = .retract) :
    r.drillBoundary w = { r with cyc := { r.cyc with phase := .homeWait } } := by
  rw [Run.drillBoundary, h]

/-- R120: a stack within its tolerance is GOOD, any other SUSPECT. -/
theorem Run.stackCheck_eq (w : DrillWork) (r : Run) (pc pb off : Int) (hc : w.contact = some pc) (hb : w.breakthrough = some pb)
    (hoff : off = (((pb - pc) - (w.layers.map Layer.thickness).sum).natAbs : Int)) :
    r.stackCheck w =
      { r with
        state := .retracting
        raised := if off ≤ w.prof.stackTolerance then r.raised else .stackMismatch :: r.raised
        cyc := { r.cyc with
                 decision := some (if off ≤ w.prof.stackTolerance then .good else .suspect, .none)
                 phase := .run, work := .drill { w with stage := .retract, torqueCount := 0 } } } := by
  have hstack : (((w.breakthrough.getD 0 - w.contact.getD 0) - w.stack).natAbs : Int) = off := by
    rw [hc, hb, hoff]; rfl
  rw [Run.stackCheck, hstack]
  by_cases hin : off ≤ w.prof.stackTolerance
  · rw [if_pos hin, if_pos hin, if_pos hin]; rfl
  · rw [if_neg hin, if_neg hin, if_neg hin]; rfl

end Sys2Proof.Machine
end

section
/-!
A cycle return of a drilling cycle (R107): the return itself, the record (R124), the overload test (R125), and the tests of the
stages (R117, R119, R122, R123).
-/
namespace Sys2Proof.Machine

/-! ## The return -/

/-- R15: a TOOL return whose drive reports no FAULT: the status, then the cycle that returns. -/
theorem Station.toolReturn_quiet (h : HeadNo) (payload : List Byte) (s : Station) (fb : Feedback)
    (hfb : toolFeedback payload = fb) (hquiet : fb.status ≠ .fault) :
    s.toolReturn h payload = (s.setHead h { s.head h with toolStatus := fb.status }).engineReturn h fb := by
  unfold Station.toolReturn
  dsimp only
  rw [hfb, Station.driveReports, if_neg fun hf => hquiet hf.1]
  rfl

/-- R107: without a cycle that returns, the engine and the bank do nothing. -/
theorem Station.engineReturn_none (h : HeadNo) (fb : Feedback) (s : Station) (hn : (s.head h).cycleReturning = none) :
    s.engineReturn h fb = s := by
  simp only [Station.engineReturn, hn]

theorem Station.engineReturn_some (h : HeadNo) (fb : Feedback) (s : Station) (c : Cycle) (p : Int)
    (hc : (s.head h).cycleReturning = some (c, p)) :
    s.engineReturn h fb =
      s.putRun h (cycleReturn fb p (s.head h).gate.holdDistance (s.head h).cfg.homeBand (s.head h).state (s.head h).bank c) := by
  simp only [Station.engineReturn, hc]

/-- R15, R107: a TOOL return that is a cycle return. -/
theorem Station.toolReturn_cycle (h : HeadNo) (payload : List Byte) (s : Station) (fb : Feedback) (c : Cycle) (p : Int)
    (hfb : toolFeedback payload = fb) (hquiet : fb.status ≠ .fault) (hst : (s.head h).state.inCycle = true)
    (hc : (s.head h).engine = some c) (hp : c.sent = some p) :
    s.toolReturn h payload =
      (s.setHead h { s.head h with toolStatus := fb.status }).putRun h
        (cycleReturn fb p (s.head h).gate.holdDistance (s.head h).cfg.homeBand (s.head h).state (s.head h).bank c) := by
  have hreturns : ((s.setHead h { s.head h with toolStatus := fb.status }).head h).cycleReturning = some (c, p) := by
    rw [Station.head_setHead_same]
    exact Head.cycleReturning_eq_some _ c p hst hc hp
  rw [s.toolReturn_quiet h payload fb hfb hquiet, Station.engineReturn_some h fb _ c p hreturns, Station.head_setHead_same]

/-- What a cycle return leaves, put into a head that was just written. -/
theorem Station.modHead_setHead (h : HeadNo) (f : Head → Head) (v : Head) (s : Station) :
    (s.setHead h v).modHead h f = s.setHead h (f v) := by
  rw [Station.modHead, Station.head_setHead_same, Station.setHead_setHead]

/-! ## Record and overload -/

/-- R124: the returns on which the torque counts as over-torque. -/
theorem DrillWork.overTorqueCounts_iff (w : DrillWork) (torque : Nat) :
    ((w.stage.isCut || w.stage == .exit) && decide (w.prof.chipLoadTorque ≠ 0) && decide (w.prof.chipLoadTorque < torque)) = true
      ↔ (w.stage.isCut = true ∨ w.stage = .exit) ∧ w.prof.chipLoadTorque ≠ 0 ∧ w.prof.chipLoadTorque < torque := by
  simp only [Bool.and_eq_true, Bool.or_eq_true, beq_iff_eq, decide_eq_true_eq, and_assoc]

/-- R124: the peaks, and the over-torque returns of the CUT stages and of EXIT. -/
theorem Run.recordDrill_drill (fb : Feedback) (r : Run) (w : DrillWork) (hw : r.cyc.work = .drill w) :
    r.recordDrill fb =
      { r with
        cyc := { r.cyc with
                 peakForce := max r.cyc.peakForce fb.force
                 work := .drill
                   { w with
                     peakTorque := max w.peakTorque fb.torque
                     overTorque :=
                       if (w.stage.isCut = true ∨ w.stage = .exit) ∧ w.prof.chipLoadTorque ≠ 0
                         ∧ w.prof.chipLoadTorque < fb.torque then min (w.overTorque + 1) 65535
                       else w.overTorque } } } := by
  rw [Run.recordDrill, Run.onDrill_drill _ r w hw]
  simp only [DrillWork.overTorqueCounts_iff, satAdd16]

/-- R107: the parts of a cycle return, in their order. -/
theorem cycleReturn_drill (fb : Feedback) (sent hold band : Int) (st : HeadState) (b : Bank) (c : Cycle) (w : DrillWork)
    (hw : c.work = .drill w) :
    cycleReturn fb sent hold band st b c =
      ((((((Run.begin c st b).recordDrill fb).overload fb w.prof.overloadForce).spindle fb).drillTests fb sent band).comparators
        fb sent hold st w.stage.maskBit).drillStep fb := by
  simp only [cycleReturn, hw, drillReturn]

theorem Run.overload_within (fb : Feedback) (limit : Nat) (r : Run) (h : fb.force ≤ limit) : r.overload fb limit = r :=
  if_neg (Nat.not_lt.mpr h)

/-- R125: the reason of an overload: that of an outcome FAILED decided before, else OVERLOAD. -/
def Cycle.overloadReason (c : Cycle) : Reason :=
  match c.decision with
  | some (.failed, why) => why
  | _ => .overload

/-- R125: beyond the limit the cycle is FAILED in an immediate stop. -/
theorem Run.overload_beyond (fb : Feedback) (limit : Nat) (r : Run) (h : limit < fb.force) :
    r.overload fb limit = (r.conclude .failed r.cyc.overloadReason).immediate := by
  rw [Run.overload, if_pos h]
  unfold Cycle.overloadReason
  cases r.cyc.decision with
  | none => rfl
  | some decided =>
    obtain ⟨o, why⟩ := decided
    cases o <;> rfl

/-! ## The tests of a stage -/

theorem Run.drillTests_frozen (fb : Feedback) (sent band : Int) (r : Run) (h : r.state = .frozen) :
    r.drillTests fb sent band = r := if_pos h

section Stage

variable (fb : Feedback) (sent band : Int) (w : DrillWork) (r : Run) (hw : r.cyc.work = .drill w)
include hw

/-- R107: the stages without a test of their own. -/
theorem Run.drillTests_none (h : w.stage = .approach ∨ w.stage = .overtravel ∨ w.stage = .peckOut ∨ w.stage = .peckIn) :
    r.drillTests fb sent band = r := by
  unfold Run.drillTests
  rw [Run.onDrill_drill _ r w hw]
  obtain h | h | h | h := h
  · simp only [h, ite_self]
  · simp only [h, ite_self]
  · simp only [h, ite_self]
  · simp only [h, ite_self]

theorem Run.drillTests_seek (hst : r.state ≠ .frozen) (h : w.stage = .seek) :
    r.drillTests fb sent band = r.seekTest fb sent w := by
  rw [Run.drillTests, if_neg hst, Run.onDrill_drill _ r w hw, h]

theorem Run.drillTests_cut (i : Nat) (hst : r.state ≠ .frozen) (h : w.stage = .cut i) :
    r.drillTests fb sent band = r.torqueTest fb sent i w := by
  rw [Run.drillTests, if_neg hst, Run.onDrill_drill _ r w hw, h]

theorem Run.drillTests_exit (hst : r.state ≠ .frozen) (h : w.stage = .exit) :
    r.drillTests fb sent band = r.exitTest fb sent w := by
  rw [Run.drillTests, if_neg hst, Run.onDrill_drill _ r w hw, h]

theorem Run.drillTests_retract (hst : r.state ≠ .frozen) (h : w.stage = .retract) :
    r.drillTests fb sent band = r.homeTest fb band := by
  rw [Run.drillTests, if_neg hst, Run.onDrill_drill _ r w hw, h]

end Stage

/-! ## SEEK and EXIT -/

/-- R117: the contact test, by the count that this return leaves: recognition, the boundary, or neither. -/
theorem Run.seekTest_spec (fb : Feedback) (sent : Int) (w : DrillWork) (r : Run) (n : Nat)
    (hn : n = (if w.prof.contactForce ≤ fb.force then w.contactCount + 1 else 0)) :
    (w.prof.contactCount ≤ n →
        r.seekTest fb sent w =
          { r with
            cyc := { r.cyc with
                     phase := .run
                     work := .drill
                       { w with
                         contactCount := n, contact := some sent, stage := .cut 1
                         layerEnd := some (sent + (w.layers.map Layer.thickness).sum) } } })
      ∧ (n < w.prof.contactCount → sent ≠ w.surface + w.prof.contactWindow →
        r.seekTest fb sent w = r.putDrill { w with contactCount := n })
      ∧ (n < w.prof.contactCount → sent = w.surface + w.prof.contactWindow →
        r.seekTest fb sent w =
          { r with
            state := .retracting
            cyc := { r.cyc with
                     decision := some (.aborted, .noContact), phase := .run, s := 0
                     work := .drill { w with contactCount := n, torqueCount := 0, stage := .retract } } }) := by
  subst hn
  exact ⟨fun h => if_pos h, fun h hs => (if_neg (Nat.not_le.mpr h)).trans (if_neg hs),
    fun h hs => (if_neg (Nat.not_le.mpr h)).trans (if_pos hs)⟩

/-- R119: the breakthrough test, in the same way. -/
theorem Run.exitTest_spec (fb : Feedback) (sent : Int) (w : DrillWork) (r : Run) (n : Nat)
    (hn : n = (if fb.force ≤ w.prof.breakthroughForce then w.breakthroughCount + 1 else 0)) :
    (w.prof.breakthroughCount ≤ n →
        r.exitTest fb sent w =
          { r with
            cyc := { r.cyc with
                     phase := .run
                     work := .drill
                       { w with breakthroughCount := n, torqueCount := 0, breakthrough := some sent, stage := .overtravel } } })
      ∧ (n < w.prof.breakthroughCount → sent ≠ w.layerEnd.getD 0 + w.prof.lateLimit →
        r.exitTest fb sent w = r.putDrill { w with breakthroughCount := n })
      ∧ (n < w.prof.breakthroughCount → sent = w.layerEnd.getD 0 + w.prof.lateLimit →
        r.exitTest fb sent w =
          { r with
            state := .retracting, stepDone := true
            cyc := { r.cyc with
                     decision := some (.failed, .noBreakthrough), phase := .run, p := r.cyc.sent.getD r.cyc.p, s := 0
                     work := .drill { w with breakthroughCount := n, torqueCount := 0, stage := .retract } } }) := by
  subst hn
  exact ⟨fun h => if_pos h, fun h hs => (if_neg (Nat.not_le.mpr h)).trans (if_neg hs),
    fun h hs => (if_neg (Nat.not_le.mpr h)).trans (if_pos hs)⟩

/-! ## Torque -/

theorem Run.torqueTest_off (fb : Feedback) (sent : Int) (i : Nat) (w : DrillWork) (r : Run) (h : w.prof.chipLoadTorque = 0) :
    r.torqueTest fb sent i w = r.putDrill { w with torqueCount := 0 } := if_pos h

section Torque

variable (fb : Feedback) (sent : Int) (i n : Nat) (w : DrillWork) (r : Run)
  (hn : n = (if w.prof.chipLoadTorque < fb.torque then w.torqueCount + 1 else 0)) (hlimit : w.prof.chipLoadTorque ≠ 0)
include hn hlimit

/-- R122: below the torque count the return only counts. -/
theorem Run.torqueTest_counts (h : n < w.prof.torqueCount) :
    r.torqueTest fb sent i w = r.putDrill { w with torqueCount := n } := by
  subst hn
  exact (if_neg hlimit).trans (if_neg (Nat.not_le.mpr h))

/-- R123: a trip with every peck made is CHIP_PACK. -/
theorem Run.torqueTest_chipPack (h : w.prof.torqueCount ≤ n) (hp : w.prof.maxPecks ≤ w.pecks) :
    r.torqueTest fb sent i w = ((r.putDrill { w with torqueCount := 0 }).conclude .failed .chipPack).immediate := by
  subst hn
  exact (if_neg hlimit).trans ((if_pos h).trans (if_pos hp))

/-- R123: any other trip begins a peck, in STOPPING within the boundary of its CUT stage (log 24). -/
theorem Run.torqueTest_peck (h : w.prof.torqueCount ≤ n) (hp : w.pecks < w.prof.maxPecks) (hst : w.stage = .cut i) :
    r.torqueTest fb sent i w =
      { r with
        cyc := { r.cyc with
                 phase := .stopping
                 stopBound := if i < w.layers.length then w.contact.getD 0 + ((w.layers.take i).map Layer.thickness).sum
                   else w.layerEnd.getD 0 - w.prof.exitWindow
                 work := .drill
                   { w with
                     torqueCount := 0, pecks := w.pecks + 1, peckDepth := some sent, peckLayer := some i
                     stage := .peckOut } } } := by
  subst hn
  have hbound : ({ w with torqueCount := 0 }.leg none false).bound =
      if i < w.layers.length then w.contact.getD 0 + ((w.layers.take i).map Layer.thickness).sum
      else w.layerEnd.getD 0 - w.prof.exitWindow := by
    rw [DrillWork.leg_of_stage ({ w with torqueCount := 0 } : DrillWork) none false (.cut i) hst]
    rfl
  refine (if_neg hlimit).trans ((if_pos h).trans ((if_neg (Nat.not_le.mpr hp)).trans ?_))
  rw [hbound]
  rfl

end Torque

/-- Settles O25: the return, its order, and each of its parts by the lemma that says what the part does. -/
theorem drillDetectorsRecogniseAndTimeOut : Obligations.DrillDetectorsRecogniseAndTimeOut := by
  refine ⟨fun fb sent w r n => ⟨r.seekTest_spec fb sent w n, r.exitTest_spec fb sent w n⟩,
    fun h payload s w fb hw hfb hstatus => ?_,
    fun fb sent hold band st b c w begun recorded tested hw hbegun hrecorded htested => ?_,
    fun fb limit r => ⟨r.overload_within fb limit, r.overload_beyond fb limit⟩,
    fun fb sent band w r hw => ⟨fun h => h.elim (r.drillTests_frozen fb sent band) (r.drillTests_none fb sent band w hw),
      r.drillTests_seek fb sent band w hw, r.drillTests_cut fb sent band w hw, r.drillTests_exit fb sent band w hw,
      r.drillTests_retract fb sent band w hw⟩,
    fun fb sent i n w r hst hn => ⟨r.torqueTest_off fb sent i w, r.torqueTest_counts fb sent i n w hn,
      r.torqueTest_chipPack fb sent i n w hn, fun hl h hp => r.torqueTest_peck fb sent i n w hn hl h hp hst⟩,
    fun fb w l r hw hl => ?_, fun r d => rfl,
    fun w r => ⟨r.drillBoundary_approach w, r.drillBoundary_tested w, fun i h => ?_,
      fun pc pb off h hc hb hoff => (r.drillBoundary_overtravel w h).trans (r.stackCheck_eq w pc pb off hc hb hoff),
      r.drillBoundary_peckOut w, r.drillBoundary_peckIn w, r.drillBoundary_retract w⟩,
    fun w ease ready f feed upTo pc e pb hf hfeed hupTo hpc he hpb => ?_⟩
  -- the return
  · subst hw
    obtain ⟨hcode, hquiet⟩ := DriveStatus.ofCode_quiet _ _ hstatus
    have hread : toolFeedback payload = fb := by
      rw [toolFeedback, hcode]
      exact hfb.symm
    refine ⟨fun hidle => ?_, fun c p r u hst hc hp hr hu => ?_⟩
    · rw [s.toolReturn_quiet h payload fb hread hquiet]
      refine Station.engineReturn_none h fb _ ?_
      rw [Station.head_setHead_same]
      exact Head.cycleReturning_eq_none _ hidle
    · have hleft : ((s.setHead h { s.head h with toolStatus := fb.status }).modHead h (Head.ran r)).raiseAll r.raised = u := by
        rw [Station.modHead_setHead, hu]
        rfl
      rw [s.toolReturn_cycle h payload fb c p hread hquiet hst hc hp, ← hr, ← hleft]
      exact ⟨Station.putRun_going h r _, Station.putRun_home h r _, Station.putRun_lost h r _⟩
  -- the order
  · have hrecord : (Run.begin c st b).recordDrill fb = recorded := by
      rw [Run.recordDrill_drill fb _ w hw, hrecorded, hbegun]
      rfl
    rw [cycleReturn_drill fb sent hold band st b c w hw, hrecord, htested]
  -- the step
  · subst hl
    refine ⟨r.drillStep_done fb, r.drillStep_frozen fb w hw, r.drillStep_homeWait fb w hw, r.drillStep_stopping fb w hw,
      fun d start hd hv hst hp hstart hstep => ?_⟩
    have hmove := r.drillStep_moving fb w hw hd hv hst hp d (by rw [DrillWork.startSpeed_eq, ← hstart]; exact hstep)
    exact ⟨fun hb => hmove.trans (if_neg (by simp [hb])), fun hb => hmove.trans (if_pos hb)⟩
  -- the boundary step of a CUT stage
  · rw [r.drillBoundary_cut w i h]
    by_cases hi : i < w.layers.length
    · rw [if_pos hi, if_pos hi]
      rfl
    · rw [if_neg hi, if_neg hi]
      rfl
  -- the legs
  · subst hf hpc he hpb
    obtain rfl : feed = w.feed := funext hfeed
    obtain rfl : upTo = w.depthTo := funext hupTo
    exact ⟨w.leg_of_stage ease ready _, w.leg_of_stage ease ready _, w.leg_cut ease ready, w.leg_lastCut ease ready,
      w.leg_of_stage ease ready _, w.leg_of_stage ease ready _, w.leg_of_stage ease ready _, w.leg_peckIn ease ready,
      w.leg_of_stage ease ready _⟩

end Sys2Proof.Machine
end

section
/-!
Two limits of a setting cycle: the wait for a rivet (R135) and the dwell (R139), each where a TOOL return makes its test and as an
event of its own.
-/
namespace Sys2Proof.Machine

/-! ## A setting cycle on a return -/

theorem Run.onSet_set (f : SetWork → Run → Run) (r : Run) (w : SetWork) (hw : r.cyc.work = .set w) : r.onSet f = f w r := by
  simp only [Run.onSet, hw]

/-- R126, R140: RETRACT has no count of its own, so that a setting cycle which retracts keeps its counts. -/
theorem Work.toRetract_set (w : SetWork) : (Work.set w).toRetract = .set { w with stage := .retract } := rfl

/-- R107: a return on which the cycle goes on and no fault kind is raised writes the head alone. -/
theorem Station.putRun_quiet (h : HeadNo) (r : Run) (s : Station) (hv : r.verdict = .going) (hr : r.raised = []) :
    s.putRun h r = s.setHead h (Head.ran r (s.head h)) := by
  rw [Station.putRun_going h r s hv, hr]
  rfl

/-! ## The wait for a rivet -/

/-- R135: a rivet begins ADVANCE from speed 0. -/
theorem Run.feedTest_present (present : Bool) (w : SetWork) (r : Run) (h : present = true) :
    r.feedTest present w = { r with cyc := { r.cyc with phase := .run, s := 0, work := .set { w with stage := .advance } } } :=
  if_pos h

/-- R135: within the feed limit the wait goes on. -/
theorem Run.feedTest_waits (present : Bool) (w : SetWork) (r : Run) (h : present = false) (hin : r.cyc.frames ≤ w.prof.feedLimit) :
    r.feedTest present w = r :=
  (if_neg (by simp [h])).trans (if_neg (Nat.not_lt.mpr hin))

/-- R135: no rivet beyond the feed limit ends the cycle, from rest. -/
theorem Run.feedTest_noRivet (present : Bool) (w : SetWork) (r : Run) (h : present = false)
    (hlate : w.prof.feedLimit < r.cyc.frames) : r.feedTest present w = (r.conclude .aborted .noRivet).fromRest :=
  (if_neg (by simp [h])).trans (if_pos hlate)

/-- R135: RIVET_FEED_LIMIT of an ENGAGED head in FEED_WAIT. -/
theorem Station.rivetFeedLimit_due (h : HeadNo) (present : Bool) (s : Station) (c : Cycle) (d : SetWork) (sent : Int)
    (ha : s.ring.active = true) (hst : (s.head h).state = .engaged) (hc : (s.head h).engine = some c)
    (hsent : c.sent = some sent) (hw : c.work = .set d) (hstage : d.stage = .feedWait) (hlimit : d.prof.feedLimit < c.frames) :
    s.rivetFeedLimit h present = s.putRun h ((Run.begin c (s.head h).state (s.head h).bank).feedTest present d) := by
  have hreturns := Head.cycleReturning_eq_some (s.head h) c sent (by rw [hst]; rfl) hc hsent
  have hdue : feedDue (s.head h) c = true := by simp [feedDue, hst, hw, hstage, hlimit]
  rw [Station.rivetFeedLimit, Station.onLimit_due h feedDue _ s c sent ha hreturns hdue, Run.onSet_set _ _ d hw]

/-- Settles O30: the event makes the test of FEED_WAIT, whose three cases have a lemma each. -/
theorem rivetFeedLimitAborts : Obligations.RivetFeedLimitAborts := by
  refine ⟨fun h present s w c d sent ha hw hst hc hsent hwork hstage hlimit => ?_, fun present w r =>
    ⟨r.feedTest_present present w, r.feedTest_waits present w, r.feedTest_noRivet present w⟩⟩
  subst hw
  have hreturn := s.toStation.rivetFeedLimit_due h present c d sent ha hst hc hsent hwork hstage hlimit
  refine ⟨fun hpresent => State.onStation_setHead ?_, fun hnone => State.onStation_setHead ?_⟩
  · rw [hreturn, Run.feedTest_present present d _ hpresent, Station.putRun_quiet h _ _ rfl rfl]
    rfl
  · rw [hreturn, Run.feedTest_noRivet present d _ hnone hlimit, Station.putRun_quiet h _ _ rfl rfl, ← Work.toRetract_set, ← hwork]
    rfl

/-! ## The dwell -/

/-- R139: a force below the hold force is a slip, whatever the count. -/
theorem Run.dwellTest_slip (force : Nat) (w : SetWork) (r : Run) (h : force < w.prof.holdForce) :
    r.dwellTest force w = (r.conclude .failed .slip).fromRest := if_pos h

/-- R139: short of the dwell a return only counts. -/
theorem Run.dwellTest_counts (force : Nat) (w : SetWork) (r : Run) (h : w.prof.holdForce ≤ force)
    (hshort : w.dwellCount + 1 < w.prof.dwell) : r.dwellTest force w = r.putSet { w with dwellCount := w.dwellCount + 1 } :=
  (if_neg (Nat.not_lt.mpr h)).trans (if_neg (Nat.not_le.mpr hshort))

/-- R139: the return that completes the dwell makes the rivet GOOD. -/
theorem Run.dwellTest_good (force : Nat) (w : SetWork) (r : Run) (h : w.prof.holdForce ≤ force)
    (hfull : w.prof.dwell ≤ w.dwellCount + 1) :
    r.dwellTest force w = ((r.putSet { w with dwellCount := w.dwellCount + 1 }).conclude .good .none).fromRest :=
  (if_neg (Nat.not_lt.mpr h)).trans (if_pos hfull)

/-- R139: DWELL_COMPLETE of an ENGAGED head in HOLD. -/
theorem Station.dwellComplete_due (h : HeadNo) (force : Half) (s : Station) (c : Cycle) (d : SetWork) (sent : Int)
    (ha : s.ring.active = true) (hst : (s.head h).state = .engaged) (hc : (s.head h).engine = some c)
    (hsent : c.sent = some sent) (hw : c.work = .set d) (hstage : d.stage = .hold) (hfull : d.prof.dwell ≤ d.dwellCount + 1) :
    s.dwellComplete h force = s.putRun h ((Run.begin c (s.head h).state (s.head h).bank).dwellTest force.toNat d) := by
  have hreturns := Head.cycleReturning_eq_some (s.head h) c sent (by rw [hst]; rfl) hc hsent
  have hdue : dwellDue (s.head h) c = true := by simp [dwellDue, hst, hw, hstage, hfull]
  rw [Station.dwellComplete, Station.onLimit_due h dwellDue _ s c sent ha hreturns hdue, Run.onSet_set _ _ d hw]

/-- Settles O31: the event makes the tests of HOLD, whose three cases have a lemma each. -/
theorem dwellCompleteDecides : Obligations.DwellCompleteDecides := by
  refine ⟨fun h force s w c d sent ha hw hst hc hsent hwork hstage hfull => ?_, fun force w r =>
    ⟨r.dwellTest_slip force w, r.dwellTest_counts force w, r.dwellTest_good force w⟩⟩
  subst hw
  have hreturn := s.toStation.dwellComplete_due h force c d sent ha hst hc hsent hwork hstage hfull
  refine ⟨fun hheld => State.onStation_setHead ?_, fun hslip => State.onStation_setHead ?_⟩
  · rw [hreturn, Run.dwellTest_good force.toNat d _ hheld hfull, Station.putRun_quiet h _ _ rfl rfl]
    rfl
  · rw [hreturn, Run.dwellTest_slip force.toNat d _ hslip, Station.putRun_quiet h _ _ rfl rfl, ← Work.toRetract_set, ← hwork]
    rfl

end Sys2Proof.Machine
end

section
/-!
The stages of a setting cycle: their legs (R134), the step of a return (R131 item 5, R112, R135, R139, R147), and what a boundary
step brings (R134, R142).
-/
namespace Sys2Proof.Machine

/-! ## Legs -/

/-- R134: a leg depends on the stage alone once the items of the record are fixed. -/
theorem SetWork.leg_of_stage (w : SetWork) (st : SetStage) (h : w.stage = st) : w.leg = { w with stage := st }.leg := by
  rw [← h]

/-- R135, R139: in FEED_WAIT and in HOLD the ram does not move. -/
theorem SetWork.leg_none (w : SetWork) (h : w.stage = .feedWait ∨ w.stage = .hold) : w.leg = none :=
  h.elim (w.leg_of_stage _) (w.leg_of_stage _)

/-! ## The step of a return -/

/-- R131, R113, R138: no step after a stop of this return, after the step that recognised set force, nor when the cycle ends. -/
theorem Run.setStep_done (r : Run) (h : r.stepDone = true ∨ r.verdict ≠ .going) : r.setStep = r := if_pos h

section Due

variable (r : Run) (w : SetWork) (hw : r.cyc.work = .set w) (hd : r.stepDone = false) (hv : r.verdict = .going)
include hw hd hv

/-- R135, R139: a ram that does not move keeps its setpoint with speed 0. -/
theorem Run.setStep_still (hl : w.leg = none) : r.setStep = { r with cyc := { r.cyc with s := 0 } } := by
  rw [Run.setStep, if_neg (Run.not_done_of_going hd hv), Run.onSet_set _ r w hw]
  simp only [hl]

section Leg

variable (l : Leg) (hl : w.leg = some l)
include hl

/-- R147: a FROZEN head makes a held step. -/
theorem Run.setStep_frozen (hst : r.state = .frozen) :
    r.setStep = r.stepped (heldStep w.prof.acceleration l.bound r.cyc.phase r.cyc.p r.cyc.s) := by
  rw [Run.setStep, if_neg (Run.not_done_of_going hd hv), Run.onSet_set _ r w hw]
  simp only [hl, if_pos hst]

/-- R142: a ram that waits at home does not move. -/
theorem Run.setStep_homeWait (hst : r.state ≠ .frozen) (hp : r.cyc.phase = .homeWait) : r.setStep = r := by
  rw [Run.setStep, if_neg (Run.not_done_of_going hd hv), Run.onSet_set _ r w hw]
  simp only [hl, if_neg hst, hp]

/-- R112: a step of a stop. -/
theorem Run.setStep_stopping (hst : r.state ≠ .frozen) (hp : r.cyc.phase = .stopping) :
    r.setStep = r.stepped (stoppingStep w.prof.acceleration r.cyc.stopBound r.cyc.p r.cyc.s) := by
  rw [Run.setStep, if_neg (Run.not_done_of_going hd hv), Run.onSet_set _ r w hw]
  simp only [hl, if_neg hst, hp]

/-- R108, R110: a step of the ramp, and what it brings at the boundary. No set stage turns round, so that the step starts from the
speed as it stands. -/
theorem Run.setStep_moving (hst : r.state ≠ .frozen) (hp : r.cyc.phase = .run ∨ r.cyc.phase = .rampDown) (d : Stepped)
    (hstep : d = rampStep w.prof.acceleration l r.cyc.phase r.cyc.p r.cyc.s) :
    r.setStep = if d.atBound then (r.stepped d).setBoundary w else r.stepped d := by
  rw [Run.setStep, if_neg (Run.not_done_of_going hd hv), Run.onSet_set _ r w hw, hstep]
  obtain hp | hp := hp
  · simp only [hl, if_neg hst, hp]
  · simp only [hl, if_neg hst, hp]

end Leg

end Due

/-! ## Boundary steps -/

/-- R134, R137: ADVANCE gives way to SEEK, which begins its count. -/
theorem Run.setBoundary_advance (w : SetWork) (r : Run) (h : w.stage = .advance) :
    r.setBoundary w = { r with cyc := { r.cyc with phase := .run, work := .set { w with stage := .seek, contactCount := 0 } } } := by
  rw [Run.setBoundary, h]
  rfl

/-- R142: RETRACT waits at home. -/
theorem Run.setBoundary_retract (w : SetWork) (r : Run) (h : w.stage = .retract) :
    r.setBoundary w = { r with cyc := { r.cyc with phase := .homeWait } } := by
  rw [Run.setBoundary, h]

/-- R137, R138: the other stages are ended by their tests. -/
theorem Run.setBoundary_tested (w : SetWork) (r : Run) (ha : w.stage ≠ .advance) (hr : w.stage ≠ .retract) :
    r.setBoundary w = r := by
  unfold Run.setBoundary
  cases hst : w.stage with
  | advance => exact absurd hst ha
  | retract => exact absurd hst hr
  | feedWait | seek | squeeze | hold => rfl

end Sys2Proof.Machine
end

section
/-!
A cycle return of a setting cycle (R131): the record, the order of its parts, and the tests of the stages: the obstruction of ADVANCE
(R136), the rivet in SEEK (R137), and set force in SQUEEZE (R138).
-/
namespace Sys2Proof.Machine

/-! ## The return -/

/-- R131: the peak force, and the spindle actual (log 29). -/
theorem Run.recordSet_set (fb : Feedback) (r : Run) (w : SetWork) (hw : r.cyc.work = .set w) :
    r.recordSet fb =
      { r with
        cyc := { r.cyc with
                 peakForce := max r.cyc.peakForce fb.force
                 work := .set { w with spindleActual := some fb.spindle } } } := by
  rw [Run.recordSet, Run.onSet_set _ r w hw]

/-- R131: the parts of a cycle return, in their order. -/
theorem cycleReturn_set (fb : Feedback) (sent hold band : Int) (st : HeadState) (b : Bank) (c : Cycle) (w : SetWork)
    (hw : c.work = .set w) :
    cycleReturn fb sent hold band st b c =
      (((((Run.begin c st b).recordSet fb).overload fb w.prof.overloadForce).setTests fb sent band).comparators
        fb sent hold st w.stage.maskBit).setStep := by
  simp only [cycleReturn, hw, setReturn]

/-! ## The tests of a stage -/

theorem Run.setTests_frozen (fb : Feedback) (sent band : Int) (r : Run) (h : r.state = .frozen) : r.setTests fb sent band = r :=
  if_pos h

/-- R131: each stage makes its own test. -/
theorem Run.setTests_spec (fb : Feedback) (sent band : Int) (w : SetWork) (r : Run) (hw : r.cyc.work = .set w)
    (hst : r.state ≠ .frozen) :
    (w.stage = .feedWait → r.setTests fb sent band = r.feedTest fb.rivetPresent w)
      ∧ (w.stage = .advance → r.setTests fb sent band = r.obstructionTest fb w)
      ∧ (w.stage = .seek → r.setTests fb sent band = r.rivetTest fb sent w)
      ∧ (w.stage = .squeeze → r.setTests fb sent band = r.squeezeTest fb sent w)
      ∧ (w.stage = .hold → r.setTests fb sent band = r.dwellTest fb.force w)
      ∧ (w.stage = .retract → r.setTests fb sent band = r.homeTest fb band) := by
  rw [Run.setTests, if_neg hst, Run.onSet_set _ r w hw]
  exact ⟨fun h => by rw [h], fun h => by rw [h], fun h => by rw [h], fun h => by rw [h], fun h => by rw [h], fun h => by rw [h]⟩

/-! ## ADVANCE -/

theorem Run.obstructionTest_clear (fb : Feedback) (w : SetWork) (r : Run) (h : fb.force < w.prof.contactForce) :
    r.obstructionTest fb w = r := if_neg (Nat.not_le.mpr h)

/-- R136: force in ADVANCE is an obstruction. -/
theorem Run.obstructionTest_obstructed (fb : Feedback) (w : SetWork) (r : Run) (h : w.prof.contactForce ≤ fb.force) :
    r.obstructionTest fb w = (r.conclude .failed .obstructed).immediate := if_pos h

/-! ## SEEK -/

section Rivet

variable (fb : Feedback) (sent : Int) (w : SetWork) (r : Run) (n : Nat)
  (hn : n = (if w.prof.contactForce ≤ fb.force then w.contactCount + 1 else 0))
include hn

/-- R137: contact short of the grip window is an obstruction. -/
theorem Run.rivetTest_obstructed (h : w.prof.contactCount ≤ n) (hs : sent < w.expected - w.prof.gripWindow) :
    r.rivetTest fb sent w =
      ((r.putSet { w with contactCount := n, contact := some sent }).conclude .failed .obstructed).immediate := by
  subst hn
  exact (if_pos h).trans (if_pos hs)

/-- R137: contact in the grip window begins SQUEEZE. -/
theorem Run.rivetTest_contact (h : w.prof.contactCount ≤ n) (hs : w.expected - w.prof.gripWindow ≤ sent) :
    r.rivetTest fb sent w =
      { r with
        cyc := { r.cyc with
                 phase := .run
                 work := .set { w with contactCount := n, contact := some sent, forceCount := 0, stage := .squeeze } } } := by
  subst hn
  exact (if_pos h).trans (if_neg (Int.not_lt.mpr hs))

/-- R137: no contact up to the boundary: there is no rivet. -/
theorem Run.rivetTest_noRivet (h : n < w.prof.contactCount) (hs : sent = w.expected + w.prof.gripWindow) :
    r.rivetTest fb sent w = ((r.putSet { w with contactCount := n }).conclude .aborted .noRivet).fromRest := by
  subst hn
  exact (if_neg (Nat.not_le.mpr h)).trans (if_pos hs)

/-- R137: any other return counts. -/
theorem Run.rivetTest_counts (h : n < w.prof.contactCount) (hs : sent ≠ w.expected + w.prof.gripWindow) :
    r.rivetTest fb sent w = r.putSet { w with contactCount := n } := by
  subst hn
  exact (if_neg (Nat.not_le.mpr h)).trans (if_neg hs)

end Rivet

/-! ## SQUEEZE -/

/-- R134: the boundary of SQUEEZE, from the contact. -/
theorem SetWork.squeezeBound_eq (w : SetWork) (contact : Int) (hc : w.contact = some contact) :
    w.squeezeBound = max (contact + w.prof.formedMax + w.gripComp) contact := by
  rw [SetWork.squeezeBound, hc, Option.getD_some]

section Squeeze

variable (fb : Feedback) (sent contact : Int) (w : SetWork) (r : Run) (n : Nat) (hc : w.contact = some contact)
  (hn : n = (if w.prof.setForce ≤ fb.force then w.forceCount + 1 else 0))
include hc hn

/-- R138: set force with the head formed begins HOLD at the stroke sent (log 13). -/
theorem Run.squeezeTest_formed (h : w.prof.contactCount ≤ n) (hs : w.prof.formedMin + w.gripComp ≤ sent - contact) :
    r.squeezeTest fb sent w =
      { r with
        stepDone := true
        cyc := { r.cyc with
                 phase := .run, p := sent, s := 0
                 work := .set { w with forceCount := n, setStroke := some sent, dwellCount := 0, stage := .hold } } } := by
  subst hn
  have hformed : ¬ sent - w.contact.getD 0 < w.prof.formedMin + w.gripComp := by
    rw [hc]
    exact Int.not_lt.mpr hs
  exact (if_pos h).trans (if_neg hformed)

/-- R138: set force below the formed minimum: the rivet is SHORT, and its return takes its own step at the stroke sent (log 13). -/
theorem Run.squeezeTest_short (h : w.prof.contactCount ≤ n) (hs : sent - contact < w.prof.formedMin + w.gripComp) :
    r.squeezeTest fb sent w =
      { r with
        state := .retracting, stepDone := true
        cyc := { r.cyc with
                 decision := some (.failed, .short), phase := .run, p := sent, s := 0
                 work := .set { w with forceCount := n, setStroke := some sent, stage := .retract } } } := by
  subst hn
  have hshort : sent - w.contact.getD 0 < w.prof.formedMin + w.gripComp := by
    rw [hc]
    exact hs
  exact (if_pos h).trans (if_pos hshort)

/-- R138: no set force up to the boundary: the rivet is LONG. -/
theorem Run.squeezeTest_long (h : n < w.prof.contactCount) (hs : sent = max (contact + w.prof.formedMax + w.gripComp) contact) :
    r.squeezeTest fb sent w = ((r.putSet { w with forceCount := n }).conclude .failed .long).fromRest := by
  subst hn
  rw [← w.squeezeBound_eq contact hc] at hs
  exact (if_neg (Nat.not_le.mpr h)).trans (if_pos hs)

/-- R138: any other return counts. -/
theorem Run.squeezeTest_counts (h : n < w.prof.contactCount)
    (hs : sent ≠ max (contact + w.prof.formedMax + w.gripComp) contact) :
    r.squeezeTest fb sent w = r.putSet { w with forceCount := n } := by
  subst hn
  rw [← w.squeezeBound_eq contact hc] at hs
  exact (if_neg (Nat.not_le.mpr h)).trans (if_neg hs)

end Squeeze

/-- Settles O26: the order of the return, and each of its parts by the lemma that says what the part does. -/
theorem squeezeEndsInHoldShortOrLong : Obligations.SqueezeEndsInHoldShortOrLong := by
  refine ⟨fun fb sent contact w r n hc hn => ⟨r.squeezeTest_formed fb sent contact w n hc hn,
      r.squeezeTest_short fb sent contact w n hc hn, r.squeezeTest_long fb sent contact w n hc hn,
      r.squeezeTest_counts fb sent contact w n hc hn⟩,
    fun fb sent hold band st b c w begun tested hw hbegun htested => ?_,
    fun fb sent band w r hw => ?_,
    fun fb w r => ⟨r.obstructionTest_clear fb w, r.obstructionTest_obstructed fb w⟩,
    fun fb sent w r n hn => ⟨r.rivetTest_obstructed fb sent w n hn, r.rivetTest_contact fb sent w n hn,
      r.rivetTest_noRivet fb sent w n hn, r.rivetTest_counts fb sent w n hn⟩,
    fun w r hw => ⟨r.setStep_done, fun hd hv hstill => r.setStep_still w hw hd hv (w.leg_none hstill),
      fun l hd hv hl => ⟨r.setStep_frozen w hw hd hv l hl, r.setStep_homeWait w hw hd hv l hl,
        r.setStep_stopping w hw hd hv l hl, fun d hst hp hstep => ?_⟩⟩,
    fun w r => ⟨r.setBoundary_advance w, r.setBoundary_retract w, r.setBoundary_tested w⟩,
    fun w f rc hf hrc => ?_⟩
  -- the order
  · have hrecord : (Run.begin c st b).recordSet fb = begun := by
      rw [Run.recordSet_set fb _ w hw, hbegun]
      rfl
    rw [cycleReturn_set fb sent hold band st b c w hw, hrecord, htested]
  -- the tests
  · have htests := r.setTests_spec fb sent band w hw
    simp only [imp_and] at htests
    exact ⟨r.setTests_frozen fb sent band, htests⟩
  -- the step
  · have hmove := r.setStep_moving w hw hd hv l hl hst hp d hstep
    exact ⟨fun hb => hmove.trans (if_neg (by simp [hb])), fun hb => hmove.trans (if_pos hb)⟩
  -- the legs
  · subst hf hrc
    exact ⟨w.leg_none, w.leg_of_stage _, w.leg_of_stage _, w.leg_of_stage _, w.leg_of_stage _⟩

end Sys2Proof.Machine
end

section
/-!
The result queue: what the hold test makes of it (R158), its slots (R156) and RESULT FLUSH (R161).
-/
namespace Sys2Proof.Machine

/-! ## The hold test -/

/-- R158: the queue as the hold test leaves it. -/
def ResultQueue.tested (q : ResultQueue) : ResultQueue :=
  { q with hold := if q.hold then decide (q.lower < q.records.length) else decide (q.upper ≤ q.records.length) }

/-- R155: the queue with a record at its tail, before the hold test. -/
def ResultQueue.joined (r : Result) (q : ResultQueue) : ResultQueue := { q with records := q.records ++ [r] }

theorem ResultQueue.joined_length (r : Result) (q : ResultQueue) : (q.joined r).records.length = q.records.length + 1 :=
  List.length_append

theorem Station.holdTest_results (s : Station) : s.holdTest.results = s.results.tested := by
  unfold Station.holdTest ResultQueue.tested
  split
  · next hold =>
    split
    · next hlow => rw [decide_eq_false (Nat.not_lt.mpr hlow)]
    · next hlow => rw [decide_eq_true (Nat.not_le.mp hlow), ← hold]
  · next hold =>
    split
    · next hup => rw [decide_eq_true hup]; rfl
    · next hup => rw [decide_eq_false hup, ← Bool.eq_false_iff.mpr hold]

theorem Station.join_results (s : Station) (r : Result) : (s.join r).results = (s.results.joined r).tested :=
  Station.holdTest_results _

/-- R158, R157: below an upper threshold above 0, the test of an empty queue clears a set hold and does nothing else. -/
theorem Station.holdTest_empty (s : Station) (hrecords : s.results.records = []) (hup : 0 < s.results.upper) :
    s.holdTest = { s with results := { s.results with hold := false } } := by
  unfold Station.holdTest
  rw [hrecords, List.length_nil, if_pos (Nat.zero_le _), if_neg (Nat.not_le.mpr hup)]
  split
  · rfl
  · next hold => rw [← Bool.eq_false_iff.mpr hold]

/-! ## Slots and RESULT FLUSH -/

/-- R156: a slot that comes filled is left as it came. -/
theorem Station.drain_filled (payload : List Byte) (s : Station) (hfilled : byteAt payload 0 ≠ 0) :
    s.drain payload = (s, payload) := if_pos hfilled

/-- R156: an empty queue fills no slot. -/
theorem Station.drain_empty (payload : List Byte) (s : Station) (hrecords : s.results.records = []) :
    s.drain payload = (s, payload) := by
  unfold Station.drain
  rw [hrecords, ite_self]

/-- R156: a slot that comes clear takes the oldest record. -/
theorem Station.drain_oldest (payload : List Byte) (s : Station) (r : Result) (rest : List Result)
    (hclear : byteAt payload 0 = 0) (hrecords : s.results.records = r :: rest) :
    s.drain payload
      = (Station.holdTest { s with results := { s.results with records := rest } }, flagByte true :: r.bytes) := by
  unfold Station.drain
  rw [if_neg (not_not_intro hclear), hrecords]

/-- Settles O16: a RESULT_SLOT section on a return is a slot drained, in its three cases. -/
theorem resultSlotTakesTheOldestRecord : Obligations.ResultSlotTakesTheOldestRecord := by
  intro payload s
  refine ⟨fun hkept => ?_, fun r rest hclear hrecords => ?_⟩
  · show s.drain payload = (s, payload)
    obtain hfilled | hempty := hkept
    · exact s.drain_filled payload hfilled
    · exact s.drain_empty payload hempty
  · have hdrain := s.drain_oldest payload r rest hclear hrecords
    exact ⟨congrArg Prod.fst hdrain, congrArg Prod.snd hdrain, by simp⟩

/-- Settles O50: the hold test of the emptied queue clears a set hold. -/
theorem resultFlushEmptiesTheQueue : Obligations.ResultFlushEmptiesTheQueue := by
  intro s hactive hup
  refine State.onRequest_done hactive (Prod.ext ?_ rfl)
  exact Station.holdTest_empty { s.toStation with results := { s.results with records := [] } } rfl hup

end Sys2Proof.Machine
end

section
/-!
Room in the result queue (R157 to R159): a record joins only where a claim ends or, with the hold clear, at a stale discard,
and a claim is granted only with the hold clear; so a record of every claim standing always fits.
-/
namespace Sys2Proof.Machine

/-! ## Counting the claims -/

/-- The heads that hold a claim, in ascending number. -/
def Station.holders (s : Station) : List HeadNo := allFour.filter fun h => (s.head h).claim.isSome

theorem Station.claims_eq_length (s : Station) : s.claims = s.holders.length := rfl

theorem Station.mem_holders (s : Station) (h : HeadNo) (hheld : (s.head h).claim.isSome = true) : h ∈ s.holders :=
  List.mem_filter.mpr ⟨mem_allFour h, hheld⟩

theorem Station.claims_le_four (s : Station) : s.claims ≤ 4 := List.length_filter_le _ allFour

theorem Station.claims_le_three (s : Station) (h : HeadNo) (hfree : (s.head h).claim = none) : s.claims ≤ 3 := by
  have hlt : s.claims < allFour.length :=
    List.length_filter_lt_length_iff_exists.mpr ⟨h, mem_allFour h, by rw [hfree]; exact Bool.false_ne_true⟩
  exact Nat.le_of_lt_succ hlt

theorem Station.headsLegal.of_gained {s t : Station} (hs : s.headsLegal) (hgain : ∀ j, (s.head j).noClaimGained (t.head j)) :
    t.headsLegal := fun j => by
  obtain ⟨hlegal, _⟩ := hgain j (hs j)
  exact hlegal

/-- Where no claim is gained, the holders are the earlier ones that have kept theirs. -/
theorem Station.holders_of_gained {s t : Station} (hs : s.headsLegal) (hgain : ∀ j, (s.head j).noClaimGained (t.head j)) :
    t.holders = s.holders.filter fun h => (t.head h).claim.isSome := by
  unfold Station.holders
  rw [List.filter_filter]
  refine List.filter_congr fun j _ => ?_
  obtain ⟨_, hnone | ⟨hsame, _⟩⟩ := hgain j (hs j)
  · rw [hnone]; rfl
  · rw [hsame, Bool.and_self]

theorem Station.claims_le {s t : Station} (hs : s.headsLegal) (hgain : ∀ j, (s.head j).noClaimGained (t.head j)) :
    t.claims ≤ s.claims := by
  rw [Station.claims_eq_length, Station.holders_of_gained hs hgain]
  exact List.length_filter_le _ s.holders

/-- A claim that is let go, with none gained, is one claim less. -/
theorem Station.claims_lt {s t : Station} (hs : s.headsLegal) (hgain : ∀ j, (s.head j).noClaimGained (t.head j)) (h : HeadNo)
    (hheld : (s.head h).claim.isSome = true) (hfree : (t.head h).claim = none) : t.claims < s.claims := by
  rw [Station.claims_eq_length, Station.holders_of_gained hs hgain]
  exact List.length_filter_lt_length_iff_exists.mpr
    ⟨h, s.mem_holders h hheld, by rw [hfree]; exact Bool.false_ne_true⟩

/-- R59, R78: a legal head with a cycle holds a claim. -/
theorem Head.legal.claimed {w : Head} (hw : w.legal) (hcycle : w.engine.isSome = true) : w.claim.isSome = true := by
  obtain ⟨hclaim, hengine⟩ := hw
  rw [hclaim]
  rw [hengine] at hcycle
  revert hcycle
  cases w.state <;> simp [HeadState.inCycle, HeadState.claiming]

/-! ## The law of the result queue -/

/-- R157: the thresholds that STATION CONFIG stores. -/
def ResultQueue.tuned (q : ResultQueue) : Prop := 8 ≤ q.upper ∧ q.upper ≤ 60 ∧ q.lower + 8 ≤ q.upper

/-- R157 to R159: the law of the result queue, of a station whose heads are legal. -/
def Station.roomLegal (s : Station) : Prop := s.headsLegal ∧ s.resultsLegal

theorem Station.resultsLegal.tuned {s : Station} (hs : s.resultsLegal) : s.results.tuned := by
  obtain ⟨hlow, hhigh, hgap, _⟩ := hs
  exact ⟨hlow, hhigh, hgap⟩

theorem Station.resultsLegal.room {s : Station} (hs : s.resultsLegal) : s.results.records.length + s.claims ≤ 63 := by
  obtain ⟨_, _, _, _, _, hroom⟩ := hs
  exact hroom

/-- R158: while the hold is clear, fewer than 60 records wait. -/
theorem Station.resultsLegal.released {s : Station} (hs : s.resultsLegal) (hold : s.results.hold = false) :
    s.results.records.length < 60 := by
  obtain ⟨_, hhigh, _, hbelow, _⟩ := hs
  exact Nat.lt_of_lt_of_le (hbelow hold) hhigh

/-- R158: the hold test leaves a legal queue, whatever the hold was before it. -/
theorem Station.resultsLegal.of_tested {s : Station} {q : ResultQueue} (hq : q.tuned) (hr : s.results = q.tested)
    (hroom : q.records.length + s.claims ≤ 63) : s.resultsLegal := by
  obtain ⟨hlow, hhigh, hgap⟩ := hq
  unfold Station.resultsLegal
  rw [hr]
  refine ⟨hlow, hhigh, hgap, fun hclear => ?_, fun hset => ?_, hroom⟩
  · show q.records.length < q.upper
    simp only [ResultQueue.tested] at hclear
    split at hclear
    · have hle := of_decide_eq_false hclear; omega
    · exact Nat.not_le.mp (of_decide_eq_false hclear)
  · show q.lower < q.records.length
    simp only [ResultQueue.tested] at hset
    split at hset
    · exact of_decide_eq_true hset
    · have hle := of_decide_eq_true hset; omega

/-- The same queue with no more claims is legal. -/
theorem Station.resultsLegal.of_same {s t : Station} (hs : s.resultsLegal) (hr : t.results = s.results)
    (hclaims : t.claims ≤ s.claims) : t.resultsLegal := by
  obtain ⟨hlow, hhigh, hgap, hbelow, habove, hroom⟩ := hs
  unfold Station.resultsLegal
  rw [hr]
  exact ⟨hlow, hhigh, hgap, hbelow, habove, by omega⟩

/-- A change that gains no claim and leaves the queue alone keeps the law. -/
theorem Station.roomLegal.of_same {s t : Station} (hs : s.roomLegal) (hr : t.results = s.results)
    (hgain : ∀ j, (s.head j).noClaimGained (t.head j)) : t.roomLegal := by
  obtain ⟨hheads, hresults⟩ := hs
  exact ⟨hheads.of_gained hgain, hresults.of_same hr (Station.claims_le hheads hgain)⟩

/-- A change that gains no claim and ends in the hold test keeps the law when the queue it tests has room. -/
theorem Station.roomLegal.of_tested {s t : Station} (hs : s.roomLegal) {q : ResultQueue} (hq : q.tuned)
    (hr : t.results = q.tested) (hroom : q.records.length + s.claims ≤ 63)
    (hgain : ∀ j, (s.head j).noClaimGained (t.head j)) : t.roomLegal := by
  obtain ⟨hheads, _⟩ := hs
  have hclaims := Station.claims_le hheads hgain
  exact ⟨hheads.of_gained hgain, .of_tested hq hr (by omega)⟩

/-- R159: the record of a cycle end takes the room of the claim that ends with it. -/
theorem Station.roomLegal.of_ended {s t : Station} (hs : s.roomLegal) (h : HeadNo) (r : Result)
    (hcycle : (s.head h).engine.isSome = true) (hfree : (t.head h).claim = none)
    (hr : t.results = (s.results.joined r).tested) (hgain : ∀ j, (s.head j).noClaimGained (t.head j)) : t.roomLegal := by
  obtain ⟨hheads, hresults⟩ := hs
  have hclaims := Station.claims_lt hheads hgain h ((hheads h).claimed hcycle) hfree
  have hroom := hresults.room
  exact ⟨hheads.of_gained hgain, .of_tested (q := s.results.joined r) hresults.tuned hr
    (by rw [ResultQueue.joined_length]; omega)⟩

/-! ## What each move of a head does to the queue -/

theorem Station.concludeCycle_joined (s : Station) (h : HeadNo) (c : Cycle) (o : CycleOutcome) (why : Reason) :
    (s.concludeCycle h c o why).results = (s.results.joined (s.cycleRecord h c o why)).tested := by
  simp [Station.concludeCycle, Station.join_results]

theorem Station.discard_joined (s : Station) (h : HeadNo) (i : Nat) (why : Reason) :
    (s.discard h i why).results = (s.results.joined (s.discardRecord h i why)).tested := by
  simp [Station.discard, Station.join_results]

/-- R63, R159: a cause queues a record only where it cuts off a cycle. -/
theorem Station.toFault_roomLegal (s : Station) (h : HeadNo) (cause : Reason) (hs : s.roomLegal) :
    (s.toFault h cause).roomLegal := by
  have hgain := s.toFault_related Head.noClaimGained.rfl h cause (Head.faulted_noClaimGained cause _)
  by_cases hin : (s.head h).state.inService = true
  · cases he : (s.head h).engine with
    | none => exact hs.of_same (s.toFault_results h cause he) hgain
    | some c =>
      refine hs.of_ended h (s.cycleRecord h c .failed cause) (by rw [he]; rfl) ?_ ?_ hgain
      · rw [Station.head_toFault_inService h cause s hin]; rfl
      · rw [Station.toFault_cycle h cause s c hin he]; exact s.concludeCycle_joined h c _ _
  · exact hs.of_same (by rw [Station.toFault, if_neg hin]) hgain

/-- R78, R159: a cycle end confirmed home queues its record, if the cycle has an outcome. -/
theorem Station.finishCycle_roomLegal (s : Station) (h : HeadNo) (hs : s.roomLegal) : (s.finishCycle h).roomLegal := by
  by_cases hd : ∃ c o why, (s.head h).engine = some c ∧ c.decision = some (o, why)
  · obtain ⟨c, o, why, hc, hd⟩ := hd
    refine hs.of_ended h (s.cycleRecord h c o why) (by rw [hc]; rfl) ?_ ?_
      (s.finishCycle_related Head.noClaimGained.rfl h fun c o => .lets rfl (s.afterCycle_claiming o _) fun _ => rfl)
    · rw [s.head_finishCycle_same h c o why hc hd]; rfl
    · rw [s.finishCycle_results h c o why hc hd]; exact s.concludeCycle_joined h c o why
  · rw [s.finishCycle_none h fun c hc => ?_]
    · exact hs
    · cases ho : c.decision with
      | none => rfl
      | some d =>
        obtain ⟨o, why⟩ := d
        exact absurd ⟨c, o, why, hc, ho⟩ hd

/-- R70, R69: a head without a claim makes a stale discard, and with the hold clear, so that at most 60 records and 3 claims
stand after it. -/
theorem Station.discard_roomLegal (s : Station) (h : HeadNo) (i : Nat) (why : Reason) (hst : (s.head h).state = .seeking)
    (hold : s.results.hold = false) (hs : s.roomLegal) : (s.discard h i why).roomLegal := by
  have ⟨hheads, hresults⟩ := hs
  have hrecords := hresults.released hold
  obtain ⟨hfree, _⟩ := (hheads h).free (by rw [hst]; rfl)
  have hclaims := s.claims_le_three h hfree
  refine hs.of_tested (q := s.results.joined (s.discardRecord h i why)) hresults.tuned
    (s.discard_joined h i why) (by rw [ResultQueue.joined_length]; omega) ?_
  exact Station.heads_related Head.noClaimGained.rfl (s.head_discard h · i why) (Head.idled_noClaimGained s _ _)

/-- R73, R69: a claim is granted with the hold clear, so that at most 59 records and 4 claims stand after it. -/
theorem Station.grant_roomLegal (s : Station) (h : HeadNo) (i : Nat) (v : Hole) (hst : (s.head h).state = .seeking)
    (hold : s.results.hold = false) (hs : s.roomLegal) : (s.grant h i v).roomLegal := by
  have ⟨hheads, hresults⟩ := hs
  refine ⟨fun j => ?_, ?_⟩
  · refine Station.heads_related (R := fun a b => a.legal → b.legal) (fun _ => id) (s.head_grant h · i v) (fun hw => ?_) j
      (hheads j)
    exact ⟨rfl, by rw [hw.noCycle (by rw [hst]; rfl)]; rfl⟩
  · have hrecords := hresults.released hold
    have hclaims := (s.grant h i v).claims_le_four
    obtain ⟨hlow, hhigh, hgap, hbelow, habove, _⟩ := hresults
    exact ⟨hlow, hhigh, hgap, hbelow, habove, by rw [Station.grant_results]; omega⟩

theorem roomLegal_headMoves : HeadMoves Station.roomLegal where
  raise _ _ hs := hs
  quiet s h w hw hs :=
    hs.of_same rfl (Station.heads_related Head.noClaimGained.rfl (s.head_setHead h · w) hw.noClaimGained)
  run s h w hw hs :=
    hs.of_same rfl (Station.heads_related Head.noClaimGained.rfl (s.head_setHead h · w) hw.noClaimGained)
  toFault := Station.toFault_roomLegal
  discard := Station.discard_roomLegal
  grant s h i v hst hold _ _ hs := s.grant_roomLegal h i v hst hold hs
  loseWindow s h hst hs := by
    refine hs.of_same (by simp) (Station.heads_related Head.noClaimGained.rfl (s.head_loseWindow h) (.lets rfl ?_ ?_))
    · exact s.rest_claiming _ rfl
    · exact fun hw => hw.noCycle (by obtain h | h := hst <;> rw [h] <;> rfl)
  arm s h hst hs :=
    hs.of_same rfl (Station.heads_related Head.noClaimGained.rfl (s.head_modHead h · _)
      (.keeps rfl rfl fun ⟨hc, he⟩ => by rw [hst] at hc he; exact ⟨hc, he⟩))
  engageOn s h c v _ hclaim _ hs :=
    hs.of_same (by simp) (s.engageOn_related Head.noClaimGained.rfl h c.hole v fun _ _ =>
      .keeps rfl rfl fun _ => ⟨by rw [hclaim]; rfl, rfl⟩)
  finishCycle s h _ hs := s.finishCycle_roomLegal h hs

/-! ## Requests, slots, the halt and resets -/

/-- R157, R161, R169: a request changes the result queue by STATION CONFIG, RESULT FLUSH or STATION RESET alone. -/
theorem requestEffect_results (i : Instr) (f : Station → Station × Reply) (hf : requestEffect i = some f) (s : Station) :
    (f s).1.results = s.results ∨ i = .stationReset ∨ i = .resultFlush
      ∨ ∃ limit upper lower, i = .stationConfig limit upper lower := by
  cases i <;> simp only [requestEffect, Option.some.injEq, reduceCtorEq] at hf <;> subst hf
  case stationReset => exact .inr (.inl rfl)
  case resultFlush => exact .inr (.inr (.inl rfl))
  case stationConfig limit upper lower => exact .inr (.inr (.inr ⟨limit, upper, lower, rfl⟩))
  all_goals exact .inl (by simp)

/-- R157: the clamps of STATION CONFIG put the thresholds into their ranges. -/
theorem ResultQueue.tuned_clamped (q : ResultQueue) (upper lower : Nat) :
    ({ q with upper := clampNat 8 60 upper, lower := clampNat 0 (clampNat 8 60 upper - 8) lower } : ResultQueue).tuned := by
  simp only [ResultQueue.tuned, clampNat]
  (repeat' split) <;> omega

theorem Station.afterReset_roomLegal (r : Ring) (a : Option Reply) : (Station.afterReset r a).roomLegal := by
  have hclaims := (Station.afterReset r a).claims_le_four
  obtain ⟨hheads, _⟩ := Station.afterReset_claimsLegal r a
  refine ⟨hheads, .of_tested (q := { records := [], upper := 48, lower := 16, hold := false }) ?_ ?_ ?_⟩
  · exact ⟨by decide, by decide, by decide⟩
  · rw [Station.afterReset_eq]; rfl
  · show 0 + _ ≤ _; omega

/-- R157, R161, R169: every request keeps the law. -/
theorem requestEffect_roomLegal (i : Instr) (f : Station → Station × Reply) (hf : requestEffect i = some f) (s : Station)
    (hs : s.roomLegal) : (f s).1.roomLegal := by
  have hgain : ∀ j, (s.head j).noClaimGained ((f s).1.head j) := fun j => (requestEffect_requested i f hf s j).noClaimGained
  have ⟨_, hresults⟩ := hs
  have hroom := hresults.room
  obtain hsame | rfl | rfl | ⟨limit, upper, lower, rfl⟩ := requestEffect_results i f hf s
  · exact hs.of_same hsame hgain
  all_goals cases hf
  · exact Station.afterReset_roomLegal _ _
  · exact hs.of_tested (q := { s.results with records := [] }) hresults.tuned
      (Station.holdTest_results _) (by show 0 + _ ≤ _; omega) hgain
  · exact hs.of_tested (s.results.tuned_clamped upper.toNat lower.toNat)
      (Station.holdTest_results _) hroom hgain

/-- R156: a slot takes a record at most, and the hold test is made. -/
theorem Station.drain_roomLegal (s : Station) (l : List Byte) (hs : s.roomLegal) : (s.drain l).1.roomLegal := by
  by_cases hfilled : byteAt l 0 = 0
  · cases hrecords : s.results.records with
    | nil => rw [s.drain_empty l hrecords]; exact hs
    | cons r rest =>
      have ⟨_, hresults⟩ := hs
      have hroom := hresults.room
      rw [hrecords, List.length_cons] at hroom
      refine hs.of_tested (q := { s.results with records := rest }) hresults.tuned ?_
        (by show rest.length + _ ≤ _; omega) fun j => by rw [Station.head_drain]; exact .rfl _
      rw [s.drain_oldest l r rest hfilled hrecords]
      exact Station.holdTest_results _
  · rw [s.drain_filled l hfilled]; exact hs

theorem Station.withHalt_roomLegal (f : Ring → Ring) (s : Station) (hs : s.roomLegal) : (s.withHalt f).roomLegal := by
  unfold Station.withHalt
  dsimp only
  split
  · refine hs.of_same (by simp) fun j => ?_
    rw [Station.head_haltArrives]
    exact Head.halted_noClaimGained _
  · exact hs

/-- Every operation from which the commands are made keeps the law of the result queue. -/
theorem roomLegal_kept : Kept Station.roomLegal where
  book _ _ _ _ hs := hs
  raise _ _ hs := hs
  headerHalt s _ hs := s.withHalt_roomLegal _ hs
  stopLevel s b hs := by
    unfold Station.stopLevel
    split
    · exact s.withHalt_roomLegal _ hs
    · exact hs
  toFault := roomLegal_headMoves.toFault
  beginOutbound := roomLegal_headMoves.beginOutbound
  carriageOutbound := roomLegal_headMoves.carriageOutbound
  toolOutbound := roomLegal_headMoves.toolOutbound
  carriageReturn := roomLegal_headMoves.carriageReturn
  toolReturn := roomLegal_headMoves.toolReturn
  drain := Station.drain_roomLegal
  request := requestEffect_roomLegal
  powerOn _ _ _ _ := Station.afterReset_roomLegal _ _
  assertReset _ hs := hs
  spinUpLimit := roomLegal_headMoves.spinUpLimit
  toolNotHome := roomLegal_headMoves.toolNotHome
  rivetFeedLimit := roomLegal_headMoves.rivetFeedLimit
  dwellComplete := roomLegal_headMoves.dwellComplete

/-- Settles O60: the law of the result queue is one that every operation keeps, and it bounds the records. -/
theorem everyStepKeepsTheResultBound : Obligations.EveryStepKeepsTheResultBound := by
  intro s t hheads hresults hstep
  obtain ⟨hlegal, hkept⟩ := roomLegal_kept.step s t hstep ⟨hheads, hresults⟩
  exact ⟨hlegal, hkept, Nat.le_trans (Nat.le_add_right _ _) hkept.room⟩

end Sys2Proof.Machine
end

section
/-!
Attention (R165 to R167): the test that follows every gain of an enabled kind disarms the unit, so an armed unit has none.
-/
namespace Sys2Proof.Machine

/-! ## The fault unit -/

/-- R167: the law of the attention flag, of the fault unit alone. -/
def FaultUnit.quietWhenArmed (f : FaultUnit) : Prop := f.armed = true → f.enabled = 0

/-- R167: the attention test leaves the flag armed only where no enabled kind is raw. -/
theorem FaultUnit.quietWhenArmed_attentionTest (f : FaultUnit) : f.attentionTest.quietWhenArmed := by
  unfold FaultUnit.attentionTest
  split
  · exact nofun
  · next hquiet => exact fun harmed => Classical.not_not.mp fun hraw => hquiet ⟨harmed, hraw⟩

/-- R167: a change that leaves the flag alone, with the test made at every gain of an enabled kind, keeps the law: an armed unit
had no enabled kind before, so one that gains none has none. -/
theorem FaultUnit.quietWhenArmed.testIfGained {before : FaultUnit} (hbefore : before.quietWhenArmed) (f : FaultUnit)
    (harmed : f.armed = before.armed) : (FaultUnit.testIfGained before f).quietWhenArmed := by
  unfold FaultUnit.testIfGained
  split
  · exact f.quietWhenArmed_attentionTest
  · next hgained =>
    intro h
    have hempty : before.enabled = 0 := hbefore (harmed ▸ h)
    calc f.enabled = f.enabled &&& ~~~before.enabled := by rw [hempty]; exact BitVec.and_allOnes.symm
      _ = 0 := Classical.not_not.mp hgained

theorem FaultUnit.quietWhenArmed.raise {f : FaultUnit} (hf : f.quietWhenArmed) (k : FaultKind) :
    (f.raise k).quietWhenArmed :=
  hf.testIfGained _ rfl

theorem FaultUnit.quietWhenArmed.replaceEnable {f : FaultUnit} (hf : f.quietWhenArmed) (set : BitVec 15) :
    (f.replaceEnable set).quietWhenArmed :=
  hf.testIfGained _ rfl

/-- R166: FAULT CLEAR takes kinds away only. -/
theorem FaultUnit.quietWhenArmed.clear {f : FaultUnit} (hf : f.quietWhenArmed) (set : BitVec 15) :
    (f.clear set).quietWhenArmed := by
  intro harmed
  calc (f.clear set).enabled = f.enabled &&& ~~~set := by
        show f.raw &&& ~~~set &&& f.enable = f.raw &&& f.enable &&& ~~~set
        ac_rfl
    _ = 0 := by rw [hf harmed]; exact BitVec.zero_and

/-! ## The operations that raise kinds -/

/-- A change that leaves the fault unit alone keeps the law. -/
theorem Station.attentionLegal.of_faults {s t : Station} (hs : s.attentionLegal) (h : t.faults = s.faults) :
    t.attentionLegal := by
  unfold Station.attentionLegal
  rw [h]
  exact hs

theorem Station.raise_attentionLegal (s : Station) (k : FaultKind) (hs : s.attentionLegal) : (s.raise k).attentionLegal :=
  FaultUnit.quietWhenArmed.raise hs k

theorem Station.raiseAll_attentionLegal (ks : List FaultKind) (s : Station) (hs : s.attentionLegal) :
    (s.raiseAll ks).attentionLegal := by
  induction ks generalizing s with
  | nil => exact hs
  | cons k ks ih => exact ih (s.raise k) (s.raise_attentionLegal k hs)

/-- R158: the hold test may raise RESULT_HOLD. -/
theorem Station.holdTest_attentionLegal (s : Station) (hs : s.attentionLegal) : s.holdTest.attentionLegal := by
  unfold Station.holdTest
  split
  · split <;> exact hs
  · split
    · exact Station.raise_attentionLegal _ _ hs
    · exact hs

theorem Station.join_attentionLegal (s : Station) (r : Result) (hs : s.attentionLegal) : (s.join r).attentionLegal :=
  Station.holdTest_attentionLegal _ hs

/-- R44: the completeness test may raise JIG_COMPLETE. -/
theorem Station.completenessTest_attentionLegal (s : Station) (hs : s.attentionLegal) :
    s.completenessTest.attentionLegal := by
  unfold Station.completenessTest
  split
  · exact Station.raise_attentionLegal _ _ hs
  · exact hs

theorem Station.completenessIfWorking_attentionLegal (s : Station) (hs : s.attentionLegal) :
    s.completenessIfWorking.attentionLegal := by
  unfold Station.completenessIfWorking
  split
  · exact s.completenessTest_attentionLegal hs
  · exact hs

/-- R78: a cycle end raises the kinds of its outcome and of the two tests that it makes. -/
theorem Station.concludeCycle_attentionLegal (s : Station) (h : HeadNo) (c : Cycle) (o : CycleOutcome) (why : Reason)
    (hs : s.attentionLegal) : (s.concludeCycle h c o why).attentionLegal := by
  rw [Station.concludeCycle_eq]
  refine Station.completenessIfWorking_attentionLegal _ (Station.raiseAll_attentionLegal _ _ ?_)
  exact Station.join_attentionLegal _ _ (hs.of_faults (by simp))

/-- R63: a cause raises HEAD_FAULT, after the cycle that it cuts off has ended. -/
theorem Station.toFault_attentionLegal (s : Station) (h : HeadNo) (cause : Reason) (hs : s.attentionLegal) :
    (s.toFault h cause).attentionLegal := by
  cases hin : (s.head h).state.inService with
  | false => rwa [s.toFault_outOfService h cause hin]
  | true =>
    cases he : (s.head h).engine with
    | none =>
      rw [s.toFault_idle h cause hin he]
      exact Station.raise_attentionLegal _ _ (hs.of_faults (by simp))
    | some c =>
      rw [s.toFault_cycle h cause c hin he]
      exact Station.raise_attentionLegal _ _ (s.concludeCycle_attentionLegal h c _ _ hs)

/-- R70: a stale discard queues a record and raises STALE_ASSIGNMENT. -/
theorem Station.discard_attentionLegal (s : Station) (h : HeadNo) (i : Nat) (why : Reason) (hs : s.attentionLegal) :
    (s.discard h i why).attentionLegal := by
  refine Station.attentionLegal.of_faults ?_ (Station.idleIfEmpty_faults _ h)
  exact Station.raise_attentionLegal _ _ (Station.join_attentionLegal _ _ hs)

theorem Station.finishCycle_attentionLegal (s : Station) (h : HeadNo) (hs : s.attentionLegal) :
    (s.finishCycle h).attentionLegal := by
  unfold Station.finishCycle
  split
  · exact hs
  · next c _ =>
    split
    · exact hs
    · next o why _ => exact s.concludeCycle_attentionLegal h c o why hs

theorem attentionLegal_headMoves : HeadMoves Station.attentionLegal where
  raise := Station.raise_attentionLegal
  quiet _ _ _ _ hs := hs
  run _ _ _ _ hs := hs
  toFault := Station.toFault_attentionLegal
  discard s h i why _ _ hs := s.discard_attentionLegal h i why hs
  grant _ _ _ _ _ _ _ _ hs := hs
  loseWindow _ _ _ hs := hs.of_faults (by simp)
  arm _ _ _ hs := hs
  engageOn _ _ _ _ _ _ _ hs := hs.of_faults (by simp)
  finishCycle s h _ hs := s.finishCycle_attentionLegal h hs

/-! ## Requests, slots, the halt and resets -/

/-- R27, R44: JIG START makes the completeness test. -/
theorem jigStart_attentionLegal (s : Station) (hs : s.attentionLegal) : (jigStart s).1.attentionLegal := by
  unfold jigStart
  split
  · exact hs
  · exact Kept.eachHead Station.seekIfWork (fun h t ht => ht.of_faults (t.seekIfWork_faults h)) _
      (Station.completenessTest_attentionLegal _ hs)

/-- R42, R44: HOLE SKIP makes the completeness test while the jig is WORKING. -/
theorem holeSkip_attentionLegal (index : Half) (s : Station) (hs : s.attentionLegal) :
    (holeSkip index s).1.attentionLegal := by
  unfold holeSkip
  split
  · exact hs
  · split
    · exact hs
    · split
      · exact hs
      · split
        · exact hs
        · exact Station.completenessIfWorking_attentionLegal _ hs

/-- R100: PROFILE END may raise PROFILE_INVALID. -/
theorem profileEnd_attentionLegal (p : Byte) (s : Station) (hs : s.attentionLegal) : (profileEnd p s).1.attentionLegal := by
  unfold profileEnd
  split
  · exact hs
  · split
    · exact hs
    · split
      · exact hs
      · dsimp only
        split
        · exact hs
        · exact Station.raise_attentionLegal _ _ hs

/-- R169, R167, R151: a reset arms the flag over an empty raw set, or raises HALT and finds it latched. -/
theorem Station.afterReset_attentionLegal (r : Ring) (a : Option Reply) : (Station.afterReset r a).attentionLegal := by
  rw [Station.afterReset_eq]
  intro harmed
  have hstop : r.stopPin = false := by simpa using harmed
  simp [FaultUnit.enabled, hstop]

/-- R165 to R167: every request keeps the law. -/
theorem requestEffect_attentionLegal (i : Instr) (f : Station → Station × Reply) (hf : requestEffect i = some f) (s : Station)
    (hs : s.attentionLegal) : (f s).1.attentionLegal := by
  cases i <;> simp only [requestEffect, Option.some.injEq, reduceCtorEq] at hf <;> subst hf
  case jigStart => exact jigStart_attentionLegal s hs
  case holeSkip => exact holeSkip_attentionLegal _ s hs
  case profileEnd => exact profileEnd_attentionLegal _ s hs
  case stationConfig | resultFlush => exact Station.holdTest_attentionLegal _ hs
  case faultClear => exact FaultUnit.quietWhenArmed.clear hs _
  case faultEnable => exact FaultUnit.quietWhenArmed.replaceEnable hs _
  case attentionRearm => exact FaultUnit.quietWhenArmed_attentionTest _
  case stationReset => exact Station.afterReset_attentionLegal _ _
  all_goals exact hs.of_faults (by simp)

/-- R156, R158: a slot that takes a record makes the hold test. -/
theorem Station.drain_attentionLegal (s : Station) (l : List Byte) (hs : s.attentionLegal) : (s.drain l).1.attentionLegal := by
  unfold Station.drain
  split
  · exact hs
  · split
    · exact hs
    · exact Station.holdTest_attentionLegal _ hs

/-- R151: the halt that becomes present raises HALT. -/
theorem Station.withHalt_attentionLegal (f : Ring → Ring) (s : Station) (hs : s.attentionLegal) :
    (s.withHalt f).attentionLegal := by
  unfold Station.withHalt
  dsimp only
  split
  · exact Station.attentionLegal.of_faults (Station.raise_attentionLegal _ .halt hs) (Station.haltArrives_faults _)
  · exact hs

/-- Every operation from which the commands are made keeps the law of the attention flag. -/
theorem attentionLegal_kept : Kept Station.attentionLegal where
  book _ _ _ _ hs := hs
  raise := Station.raise_attentionLegal
  headerHalt s _ hs := s.withHalt_attentionLegal _ hs
  stopLevel s b hs := by
    unfold Station.stopLevel
    split
    · exact s.withHalt_attentionLegal _ hs
    · exact hs
  toFault := attentionLegal_headMoves.toFault
  beginOutbound := attentionLegal_headMoves.beginOutbound
  carriageOutbound := attentionLegal_headMoves.carriageOutbound
  toolOutbound := attentionLegal_headMoves.toolOutbound
  carriageReturn := attentionLegal_headMoves.carriageReturn
  toolReturn := attentionLegal_headMoves.toolReturn
  drain := Station.drain_attentionLegal
  request := requestEffect_attentionLegal
  powerOn _ _ _ _ := Station.afterReset_attentionLegal _ _
  assertReset _ hs := hs
  spinUpLimit := attentionLegal_headMoves.spinUpLimit
  toolNotHome := attentionLegal_headMoves.toolNotHome
  rivetFeedLimit := attentionLegal_headMoves.rivetFeedLimit
  dwellComplete := attentionLegal_headMoves.dwellComplete

/-- Settles O58: the law of the attention flag is one that every operation keeps. -/
theorem everyStepKeepsTheAttentionLaw : Obligations.EveryStepKeepsTheAttentionLaw := by
  intro s t hs hstep
  exact attentionLegal_kept.step s t hstep hs

end Sys2Proof.Machine
end

section
/-!
The Management Agent's sections and the station's resets: a request in the MGMT section and its answer (R162), the STATUS section
(R164), STATION CONFIG with the hold test (R163, R157, R158), and what a reset gives (R169).
-/
namespace Sys2Proof.Machine

/-! ## A request in the MGMT section -/

/-- R162: what a MGMT payload decodes to as a request is one. -/
theorem isRequest_of_decodeRequest (m : List Byte) (i : Instr) (h : decodeRequest m = .request i) : i.isRequest = true := by
  unfold decodeRequest at h
  split at h <;> cases h <;> rfl

theorem Station.takeManagement_request (payload : List Byte) (s : Station) (i : Instr) (f : Station → Station × Reply)
    (hi : decodeRequest payload = .request i) (hf : requestEffect i = some f) : s.takeManagement payload = s.take f := by
  simp only [Station.takeManagement, hi, hf]

theorem Station.takeManagement_empty (payload : List Byte) (s : Station) (h : decodeRequest payload = .empty) :
    s.takeManagement payload = s := by
  simp only [Station.takeManagement, h]

theorem Station.takeManagement_unknown (payload : List Byte) (s : Station) (h : decodeRequest payload = .unknown) :
    s.takeManagement payload = s.holdAnswer (.refused .unknown) := by
  simp only [Station.takeManagement, h]

/-- Settles O13: the section and the command run the same effect. -/
theorem managementSectionRunsTheRequest : Obligations.ManagementSectionRunsTheRequest := by
  intro payload s hactive
  refine ⟨rfl, fun i hi => ?_, s.takeManagement_empty payload, s.takeManagement_unknown payload⟩
  have hrequest := isRequest_of_decodeRequest payload i hi
  obtain ⟨f, hf⟩ := requestEffect_of_isRequest i hrequest
  refine ⟨hrequest, ?_⟩
  rw [exec_request i f hf, State.onRequest_active f s hactive,
    ← s.takeManagement_request payload i f hi hf]
  rfl

/-! ## The answer on the return -/

theorem Station.answerBytes_none (payload : List Byte) (s : Station) (h : s.mgmt.answer = none) :
    s.answerBytes payload = payload := by
  simp only [Station.answerBytes, h]

theorem Station.answerBytes_some (payload : List Byte) (s : Station) (a : Reply) (h : s.mgmt.answer = some a) :
    s.answerBytes payload = answerOut payload a := by
  simp only [Station.answerBytes, h]

theorem append_padTo (front data : List Byte) (n : Nat) (h : data.length ≤ n) :
    front ++ padTo n data = front ++ data ++ List.replicate (n - data.length) 0x00 := by
  rw [padTo_of_le n data h, List.append_assoc]

/-- Settles O14: the data is at most 76 bytes long, so the answer is the data followed by 00h. -/
theorem heldAnswerIsWritten : Obligations.HeldAnswerIsWritten := by
  intro payload s _
  refine ⟨fun h => ?_, fun data hdata h => ?_, fun data hdata h => ?_, fun why h => ?_⟩
  · exact congrArg (Prod.mk s) (s.answerBytes_none payload h)
  all_goals refine congrArg (Prod.mk s) ((s.answerBytes_some payload _ h).trans ?_)
  · exact append_padTo _ data 76 hdata
  · exact append_padTo _ data 76 hdata
  · rfl

/-! ## The STATUS section -/

/-- R164: one head's block, with the claimed hole as a field. -/
theorem Head.statusBytes_eq (w : Head) :
    w.statusBytes = w.state.code :: stageCode w.engine
      :: (bytes16 (w.claim.elim 0xFFFF fun c => BitVec.ofNat 16 c.hole) ++ [BitVec.ofNat 8 w.queue.length, w.gate.state.code]) := by
  rw [Head.statusBytes, claimedHole_eq]
  rfl

/-- R164, R24: the block of head `h` starts at offset 8 + 6h. -/
theorem Station.statusBytes_drop (s : Station) (h : HeadNo) :
    ∃ rest, s.statusBytes.drop (8 + 6 * h.val) = (s.head h).statusBytes ++ rest := by
  simp only [Station.statusBytes, Head.statusBytes_eq]
  match h with
  | 0 | 1 | 2 | 3 => exact ⟨_, rfl⟩

/-- R164: four flags in the low bits of a byte. -/
theorem fourFlags_bits (a b c d : Bool) (v : Byte)
    (hv : v = (if a then 1 else 0) ||| (if b then 2 else 0) ||| (if c then 4 else 0) ||| (if d then 8 else 0)) :
    v.getLsbD 0 = a ∧ v.getLsbD 1 = b ∧ v.getLsbD 2 = c ∧ v.getLsbD 3 = d ∧ v.toNat < 16 := by
  subst hv
  revert a b c d
  decide

theorem Station.flagsByte_bits (s : Station) :
    s.flagsByte.getLsbD 0 = s.ring.halt ∧ s.flagsByte.getLsbD 1 = s.faults.attention
      ∧ s.flagsByte.getLsbD 2 = decide (s.faults.enabled ≠ 0) ∧ s.flagsByte.getLsbD 3 = s.results.hold
      ∧ s.flagsByte.toNat < 16 :=
  fourFlags_bits _ _ _ _ _ (by simp only [Station.flagsByte, decide_eq_true_eq])

/-- R164: the six bytes that show head `h`. -/
theorem Station.statusBytes_head (s : Station) (h : HeadNo) :
    byteAt s.statusBytes (8 + 6 * h.val) = (s.head h).state.code
      ∧ byteAt s.statusBytes (9 + 6 * h.val) = stageCode (s.head h).engine
      ∧ halfAt s.statusBytes (10 + 6 * h.val) = (s.head h).claim.elim 0xFFFF (fun c => BitVec.ofNat 16 c.hole)
      ∧ byteAt s.statusBytes (12 + 6 * h.val) = BitVec.ofNat 8 (s.head h).queue.length
      ∧ byteAt s.statusBytes (13 + 6 * h.val) = (s.head h).gate.state.code := by
  obtain ⟨rest, hrest⟩ := s.statusBytes_drop h
  rw [Head.statusBytes_eq] at hrest
  have hbyte : ∀ o, byteAt s.statusBytes (o + 8 + 6 * h.val) = byteAt (s.statusBytes.drop (8 + 6 * h.val)) o := fun o => by
    rw [byteAt_drop, Nat.add_assoc, Nat.add_comm]
  have hhalf : halfAt s.statusBytes (2 + 8 + 6 * h.val) = halfAt (s.statusBytes.drop (8 + 6 * h.val)) 2 := by
    rw [halfAt_drop, Nat.add_assoc, Nat.add_comm]
  rw [hrest] at hbyte hhalf
  refine ⟨?_, ?_, ?_, ?_, ?_⟩
  · simpa using hbyte 0
  · simpa using hbyte 1
  · simpa using hhalf
  · simpa using hbyte 4
  · simpa using hbyte 5

/-- Settles O15. -/
theorem statusSectionShowsTheStation : Obligations.StatusSectionShowsTheStation := by
  rintro payload s _ rfl
  refine ⟨rfl, s.statusBytes_length, rfl, ?_, ?_, s.flagsByte_bits, rfl, fun h => ?_⟩
  · exact BitVec.toNat_setWidth_of_le (show 6 ≤ 8 by decide)
  · exact wordAt_bytes32 s.table.jigId
  · obtain ⟨hstate, hstage, hclaim, hqueue, hgate⟩ := s.statusBytes_head h
    refine ⟨hstate, hstage, hclaim.trans ?_, hqueue, hgate⟩
    cases (s.head h).claim <;> rfl

/-! ## The hold test and STATION CONFIG -/

/-- R158: a clear hold is set at the upper threshold. -/
theorem Station.holdTest_sets (s : Station) (hold : s.results.hold = false)
    (hup : s.results.upper ≤ s.results.records.length) :
    s.holdTest = { s with results := { s.results with hold := true }, faults := s.faults.raise .resultHold } := by
  rw [Station.holdTest, if_neg (by simp [hold]), if_pos hup]
  rfl

theorem Station.holdTest_staysClear (s : Station) (hold : s.results.hold = false)
    (hup : s.results.records.length < s.results.upper) : s.holdTest = s := by
  rw [Station.holdTest, if_neg (by simp [hold]), if_neg (Nat.not_le.mpr hup)]

/-- R158: a set hold is cleared at the lower threshold. -/
theorem Station.holdTest_clears (s : Station) (hold : s.results.hold = true)
    (hlow : s.results.records.length ≤ s.results.lower) :
    s.holdTest = { s with results := { s.results with hold := false } } := by
  rw [Station.holdTest, if_pos hold, if_pos hlow]

theorem Station.holdTest_staysSet (s : Station) (hold : s.results.hold = true)
    (hlow : s.results.lower < s.results.records.length) : s.holdTest = s := by
  rw [Station.holdTest, if_pos hold, if_neg (Nat.not_le.mpr hlow)]

/-- R163: STATION CONFIG with its three values clamped. -/
theorem stationConfig_eq (limit : Byte) (upper lower : Half) (s : Station) (l u w : Nat)
    (hl : l = max 1 (min 7 limit.toNat)) (hu : u = max 8 (min 60 upper.toNat)) (hw : w = min (u - 8) lower.toNat) :
    stationConfig limit upper lower s =
      (Station.holdTest
        { s with ring := { s.ring with lossLimit := l }, results := { s.results with upper := u, lower := w } },
       if l = limit.toNat ∧ u = upper.toNat ∧ w = lower.toNat then .done (u8 l ++ u16 u ++ u16 w)
       else .clamped (u8 l ++ u16 u ++ u16 w)) := by
  subst hl hu hw
  unfold stationConfig
  simp (disch := omega) only [clampNat_eq, Nat.zero_max]
  refine congrArg (Prod.mk _) ?_
  rw [← ite_not]
  simp only [not_or, Classical.not_not]

/-- Settles O49: the clamps of STATION CONFIG, and the rows of the hold test's table. -/
theorem stationConfigAndTheHoldTest : Obligations.StationConfigAndTheHoldTest := by
  refine ⟨fun limit upper lower s l u w hactive hl hu hw => ?_, fun s =>
    ⟨s.holdTest_sets, s.holdTest_staysClear, s.holdTest_clears, s.holdTest_staysSet⟩⟩
  have heq := stationConfig_eq limit upper lower s.toStation l u w hl hu hw
  by_cases hkept : l = limit.toNat ∧ u = upper.toNat ∧ w = lower.toNat
  · rw [if_pos hkept] at heq ⊢
    exact State.onRequest_done hactive heq
  · rw [if_neg hkept] at heq ⊢
    exact State.onRequest_clamped hactive heq

/-! ## Resets -/

/-- R169: the machine right after reset is the part after its power-on reset, with STOP not asserted. -/
theorem State.reset_eq : State.reset = { toStation := Station.afterReset (Ring.initial 1 false) none, pending := [] } := rfl

/-- Settles O2. -/
theorem resetStateHoldsTheResetValues : Obligations.ResetStateHoldsTheResetValues :=
  ⟨State.afterReset_atResetValues (Ring.initial 1 false) none State.reset, rfl, rfl, rfl⟩

/-- Settles O4: STATION RESET leaves the state of `Station.afterReset` with its answer held. -/
theorem stationResetKeepsAddressAndFrameInFlight : Obligations.StationResetKeepsAddressAndFrameInFlight := by
  intro s hactive
  refine ⟨_, State.onRequest_done hactive rfl, State.afterReset_atResetValues _ none s, Station.afterReset_ring _ none, ?_, rfl⟩
  exact congrArg (fun m : Mgmt => { m with answer := some (.done []) }) (congrArg Station.mgmt (Station.afterReset_eq _ none))

/-- Settles O54: each law holds of what a reset leaves. -/
theorem resetStateObeysTheLaws : Obligations.ResetStateObeysTheLaws := by
  obtain ⟨hmap, hcorrection, hcanonical⟩ := Station.afterReset_tablesLegal (Ring.initial 1 false) none rfl
  obtain ⟨hheads, hkeep⟩ := Station.afterReset_claimsLegal (Ring.initial 1 false) none
  obtain ⟨_, hresults⟩ := Station.afterReset_roomLegal (Ring.initial 1 false) none
  rw [Obligations.ResetStateObeysTheLaws, State.reset_eq]
  refine ⟨hcanonical, hcorrection, hmap, fun h => ?_, hheads, Station.afterReset_haltLegal _ _,
    Station.afterReset_attentionLegal _ _, hkeep, hresults⟩
  rw [Station.head_afterReset]
  exact ⟨Nat.zero_le _, List.nodup_nil⟩

end Sys2Proof.Machine
end

section
/-!
What one step does: an equation for each of the two cases of the queue, empty or with a command at its front.
-/
namespace Sys2Proof.Machine

/-- The part idles while nothing reaches it (the model's choice, log 2). -/
theorem step_of_pending_nil (s : State) (h : s.pending = []) : step s = .next s := by
  rw [step, h]

theorem step_of_pending_cons (s : State) (c : Instr) (rest : List Instr) (h : s.pending = c :: rest) :
    step s = exec c { s with pending := rest } := by
  rw [step, h]

/-- Settles O1: putting a command in front of a queue and taking it again gives the queue back. -/
theorem stepRunsTheFrontCommand : Obligations.StepRunsTheFrontCommand :=
  ⟨fun c s => step_of_pending_cons { s with pending := c :: s.pending } c s.pending rfl, step_of_pending_nil⟩

end Sys2Proof.Machine
end
